-- ==== Sys2Proof/Word.lean ====
section
/-! DEFINITION. The word types of the 6502: a byte and a 16-bit address (00_scope.md R7, R10). -/

namespace Sys2Proof

/-- An 8-bit byte: a register, an operand, a byte of memory (R7, R20 to R23, R41). -/
abbrev Byte := BitVec 8

/-- A 16-bit address, and the width of the program counter (R7, R36, R40). -/
abbrev Addr := BitVec 16

end Sys2Proof
end

