-- ==== Sys2Proof/Machine/Bytes.lean ====
section
/-! DEFINITION. Byte order and sign extension (00_scope.md R10, R12; 20_memory.md R43). -/

namespace Sys2Proof.Machine

/-- `hi:lo`, the 16-bit value `256 * hi + lo` (R10, R43). -/
def joinBytes (hi lo : Byte) : Addr := hi ++ lo

/-- `w[7:0]` (R10). -/
def loByte (w : Addr) : Byte := w.setWidth 8

/-- `w[15:8]` (R10). -/
def hiByte (w : Addr) : Byte := (w >>> 8).setWidth 8

/-- `zext_16` (R12). -/
def zext16 (b : Byte) : Addr := b.setWidth 16

/-- `sext_16` (R12). -/
def sext16 (b : Byte) : Addr := b.signExtend 16

/-- Byte `k` of a number written as a little-endian string of bytes (R61). -/
def byteOfNat (v k : Nat) : Byte := BitVec.ofNat 8 (v / 256 ^ k)

end Sys2Proof.Machine
end

