-- ==== Sys2Proof/Config.lean ====
section
/-! DEFINITION. What an implementation or a platform fixes: the open parameters of 00_scope.md R8, and the
values the spec leaves free (`any_bit()`, `any_byte()` of R15, unwritten memory of R57), as constants without a body. -/

namespace Sys2Proof

/-- The four kinds of address of the platform's memory map (20_memory.md R49). -/
inductive RegionKind where
  | ram | rom | device | absent
  deriving DecidableEq, Repr

/-- One entry of the memory map: the addresses `first` to `last`, both included, are of kind `kind` (R49). -/
structure Region where
  first : Addr
  last : Addr
  kind : RegionKind
  deriving DecidableEq, Repr

/-- The open parameters of R8. A claim about "the 6502" has to hold for every value of this structure; the machine
holds one in its state, because the form of `exec` and `step` leaves no other argument, and no step changes it. -/
structure Params where
  /-- `TXS_WRITES_NZ`: TXS writes N and Z (R175). -/
  txsWritesNZ : Bool
  /-- `BIT_IMM_WRITES_NV`: `BIT #` writes N and V (R154). -/
  bitImmWritesNV : Bool
  /-- `JMP_IND_PAGE_WRAP`: `JMP (a)` takes the pointer's high byte from the page of its low byte (R77). -/
  jmpIndPageWrap : Bool
  /-- `INT_CLEARS_D`: BRK, IRQ, NMI and reset clear D (R234). -/
  intClearsD : Bool
  /-- `HW_INTERRUPTS`: the platform may assert IRQ and NMI (R223 to R227). -/
  hwInterrupts : Bool
  /-- `MEM_MAP`: the regions that are not plain `ram`; the first that holds an address gives its kind, and an address
  in none of them is `ram` (R49: the default map is "every address `ram`"). -/
  memMap : List Region
  /-- `END_PC`: where a run ends with success, if anywhere (R268). The step never reads it; a run does. -/
  endPc : Option Addr
  deriving DecidableEq, Repr

/-- The parameter values under which 95_test_vectors.md states its vectors ("Conventions"): the source's value where
R8 gives one (`TXS_WRITES_NZ`, `BIT_IMM_WRITES_NV`, `INT_CLEARS_D`, `MEM_MAP`), else false; no `END_PC`.
DESIGN CHOICE for the others (notes/assumptions/3.md): unsafe to rest a claim on. -/
def Config.vectorParams : Params :=
  { txsWritesNZ := true, bitImmWritesNV := true, jmpIndPageWrap := false, intClearsD := false,
    hwInterrupts := false, memMap := [], endPc := none }

/-- FREE VALUE: the byte that stands at an address nothing has written since power-on (R57, U9 of
93_implementation_defined.md). One value for each address, so reading it twice gives the same byte. -/
opaque Config.powerOnByte : Nat → Byte

/-- FREE VALUE: `any_byte()` of R15; the argument is the number of draws before this one. -/
opaque Config.freeByte : Nat → Byte

/-- FREE VALUE: `any_bit()` of R15; the argument is the number of draws before this one. -/
opaque Config.freeBit : Nat → Bool

end Sys2Proof
end

