-- ==== Sys2Proof/Machine/MemoryMap.lean ====
section
/-! DEFINITION. The platform's memory map (20_memory.md R49). -/

namespace Sys2Proof.Machine

/-- Whether a region holds an address. -/
def regionHolds (r : Region) (a : Addr) : Bool := r.first.toNat ≤ a.toNat && a.toNat ≤ r.last.toNat

/-- The kind of an address: that of the first region that holds it, else `ram` (R49). -/
def kindAt : List Region → Addr → RegionKind
  | [], _ => .ram
  | r :: rs, a => if regionHolds r a then r.kind else kindAt rs a

end Sys2Proof.Machine
end

