-- ==== Sys2Proof/Machine/State.lean ====
section
/-! DEFINITION. The state of the machine (10_state.md R20 to R38), why a step can stop, and the state after reset (R39). -/

namespace Sys2Proof.Machine

/-- Why a step stops with a fault. Both are safe: the run ends and nothing is provable of what comes after. -/
inductive Fault where
  /-- The fetch raises it: `op` is one of the 103 opcode bytes with no row (30_encoding.md R81). Safe: the hardware goes
  on in a way that no source gives, the model stops. -/
  | undefinedOpcode (op : Byte)
  /-- The step raises it in a state whose fault mark is set: a run marked faulted "does not continue" (R81). Safe. -/
  | runFaulted
  deriving DecidableEq, Repr

/-- Why a step is refused. -/
inductive Refusal where
  /-- An arm of `exec` raises it for an instruction that has no meaning yet; no arm does. Safe. -/
  | notModelled (mnemonic : String)
  /-- A read or a write of a `device` address raises it: the value and the side effects are the platform's (R49, U11).
  Safe: the model stops where the hardware goes on. -/
  | deviceAccess (a : Addr)
  /-- A read or a write of an `absent` address raises it: "the model refuses the step" (R49, U11). Safe. -/
  | absentAccess (a : Addr)
  deriving DecidableEq, Repr

/-- The state: the tuple of R38, the platform's inputs, and the model's own fields, which are named as such. -/
@[ext]
structure State where
  /-- A, the accumulator (R20). -/
  regA : Byte
  /-- X, index register X (R21). -/
  regX : Byte
  /-- Y, index register Y (R22). -/
  regY : Byte
  /-- S, the stack pointer: the low byte of the address of the next free stack byte (R23). -/
  regS : Byte
  /-- PC: between instructions, the address of the opcode byte of the next one (R36). -/
  pc : Addr
  /-- N, the negative flag (R31). -/
  flagN : Bool
  /-- V, the overflow flag (R30). -/
  flagV : Bool
  /-- D, the decimal mode flag (R28). -/
  flagD : Bool
  /-- I, the interrupt disable flag (R27). -/
  flagI : Bool
  /-- Z, the zero flag (R26). -/
  flagZ : Bool
  /-- C, the carry flag (R25). -/
  flagC : Bool
  /-- Memory: what has been written, as (address, byte) pairs of strictly rising address (R40, R57). -/
  mem : List Host.Cell
  /-- `irq_line`: a device requests an IRQ; the platform's, under `HW_INTERRUPTS` (R37, R223). -/
  irqLine : Bool
  /-- `nmi_pending`: the NMI latch; set by the platform, cleared when the NMI is taken, under `HW_INTERRUPTS` (R37, R224). -/
  nmiPending : Bool
  /-- `i_poll`: the I that the next interrupt decision uses, under `HW_INTERRUPTS` (R37, R226). -/
  iPoll : Bool
  /-- Reset is asserted: the platform's input that R225 and R226 look at (the model's own field). -/
  resetLine : Bool
  /-- The model's fault mark (R15, R38, R81). -/
  faultMark : Bool
  /-- How many free values have been drawn (R15; the model's own field, the argument of `Config.freeByte`, `Config.freeBit`). -/
  draws : Nat
  /-- The open parameters (R8); no step changes them. -/
  params : Params
  deriving DecidableEq, Repr

/-- Right after reset (R39, R260): I is 1, `nmi_pending` 0, `i_poll` 1, the fault mark clear, memory with nothing written.
DESIGN CHOICE, unsafe (notes/assumptions/1.md, 2.md, 3.md): what R39 leaves unspecified is zero, but for S, which is
0xFD, the one value R39 mentions; PC, the content of a vector that nothing has written, is 0x0000; `irq_line`, the
platform's, is 0; the parameters are those of the test vectors. -/
def State.reset : State :=
  { regA := 0x00, regX := 0x00, regY := 0x00, regS := 0xFD, pc := 0x0000,
    flagN := false, flagV := false, flagD := false, flagI := true, flagZ := false, flagC := false,
    mem := [], irqLine := false, nmiPending := false, iPoll := true, resetLine := false,
    faultMark := false, draws := 0, params := Config.vectorParams }

end Sys2Proof.Machine
end

