-- ==== Sys2Proof/Machine/Result.lean ====
section
/-! DEFINITION. The result of an operation that may stop the step, and the one way to sequence such operations. -/

namespace Sys2Proof.Machine

/-- A value, or why the step stops. -/
abbrev Result (α : Type) := Host.Outcome α Fault Refusal

/-- Go on with the value, if there is one. -/
def andThen {α β : Type} (r : Result α) (k : α → Result β) : Result β :=
  match r with
  | .next x => k x
  | .fault f => .fault f
  | .refused f => .refused f

end Sys2Proof.Machine
end

