-- ==== Sys2Proof/Machine/Memory.lean ====
section
/-! DEFINITION. Memory: one array of 65536 bytes (20_memory.md R40), held as the list of the bytes that have been written, and
the memory primitives of 00_scope.md R13. -/

namespace Sys2Proof.Machine

/-- The byte written at `a`, if one has been. An address that is not listed has no value. -/
def cellAt : List Host.Cell → Nat → Option Byte
  | [], _ => none
  | (k, v) :: m, a => if k = a then some v else cellAt m a

/-- Memory with `v` written at `a`; keeps the addresses strictly rising. -/
def setCell : List Host.Cell → Nat → Byte → List Host.Cell
  | [], a, v => [(a, v)]
  | (k, u) :: m, a, v =>
    if a < k then (a, v) :: (k, u) :: m
    else if k = a then (a, v) :: m
    else (k, u) :: setCell m a v

/-- The addresses rise strictly from `lo` on and stay below 65536. -/
def risingFrom : Nat → List Host.Cell → Bool
  | _, [] => true
  | lo, (a, _) :: m => decide (lo ≤ a) && decide (a < 65536) && risingFrom (a + 1) m

/-- The canonical form of memory: addresses of 16 bits, strictly rising. An unlisted address has no written value: it
reads as the free value of power-on, with which no entry can be compared (notes/assumptions/5.md, 6.md). -/
abbrev Memory.wf (m : List Host.Cell) : Prop := risingFrom 0 m = true

/-- What stands at an address of plain memory: the byte written last, else the free byte of power-on (R47, R57). -/
def byteAt (s : State) (a : Addr) : Byte :=
  match cellAt s.mem a.toNat with
  | some v => v
  | none => Config.powerOnByte a.toNat

/-- The kind of an address on this platform (R49). -/
def State.kind (s : State) (a : Addr) : RegionKind := kindAt s.params.memMap a

/-- Plain memory: `ram` or `rom` (R47). -/
def State.isPlain (s : State) (a : Addr) : Bool := s.kind a == .ram || s.kind a == .rom

/-- `ram` (R47). -/
def State.isRam (s : State) (a : Addr) : Bool := s.kind a == .ram

/-- `MemRead(a, 1)` (R13, R47, R49). -/
def memRead (a : Addr) (s : State) : Result Byte :=
  match s.kind a with
  | .ram => .next (byteAt s a)
  | .rom => .next (byteAt s a)
  | .device => .refused (.deviceAccess a)
  | .absent => .refused (.absentAccess a)

/-- Replace the whole memory. -/
def setMem (m : List Host.Cell) (s : State) : State := { s with mem := m }

/-- `MemWrite(a, 1, v)`: a write to `rom` changes nothing (R13, R47, R49). -/
def memWrite (a : Addr) (v : Byte) (s : State) : Result State :=
  match s.kind a with
  | .ram => .next (setMem (setCell s.mem a.toNat v) s)
  | .rom => .next s
  | .device => .refused (.deviceAccess a)
  | .absent => .refused (.absentAccess a)

end Sys2Proof.Machine
end

