-- ==== Sys2Proof/Machine/Flags.lean ====
section
/-! DEFINITION. Register and flag updates, the status byte, and every flag computation of the spec. -/

namespace Sys2Proof.Machine

/-- `A <- v` (R11, R20). -/
def setA (v : Byte) (s : State) : State := { s with regA := v }

/-- `X <- v` (R11, R21). -/
def setX (v : Byte) (s : State) : State := { s with regX := v }

/-- `Y <- v` (R11, R22). -/
def setY (v : Byte) (s : State) : State := { s with regY := v }

/-- `S <- v` (R11, R23). -/
def setS (v : Byte) (s : State) : State := { s with regS := v }

/-- `PC <- a` (R11, R36). -/
def setPC (a : Addr) (s : State) : State := { s with pc := a }

/-- `PC <- next`, where the instruction has `len` bytes and PC is still the address of its opcode byte (R60). -/
def advance (len : Nat) (s : State) : State := { s with pc := s.pc + BitVec.ofNat 16 len }

/-- `C <- b` (R25). -/
def setC (b : Bool) (s : State) : State := { s with flagC := b }

/-- `D <- b` (R28). -/
def setD (b : Bool) (s : State) : State := { s with flagD := b }

/-- `V <- b` (R30). -/
def setV (b : Bool) (s : State) : State := { s with flagV := b }

/-- `I <- b` (R27). -/
def setI (b : Bool) (s : State) : State := { s with flagI := b }

/-- `if INT_CLEARS_D then D <- 0` (R228, R234). -/
def clearDOnEntry (s : State) : State := { s with flagD := if s.params.intClearsD then false else s.flagD }

/-- `i_poll <- b`, "only under HW_INTERRUPTS" (R37, R226). -/
def setPoll (b : Bool) (s : State) : State := { s with iPoll := if s.params.hwInterrupts then b else s.iPoll }

/-- `SetNZ(v)` (R33). -/
def setNZ (v : Byte) (s : State) : State := { s with flagN := v.getLsbD 7, flagZ := v == 0 }

/-- A flag as the number 0 or 1. -/
def bit (b : Bool) : Nat := if b then 1 else 0

/-- `PackP(b)`: N V 1 b D I Z C, from bit 7 to bit 0 (R32). -/
def packP (b : Bool) (s : State) : Byte :=
  BitVec.ofNat 8 (128 * bit s.flagN + 64 * bit s.flagV + 32 + 16 * bit b + 8 * bit s.flagD + 4 * bit s.flagI +
    2 * bit s.flagZ + bit s.flagC)

/-- `UnpackP(v)`: bits 5 and 4 are discarded (R32). -/
def unpackP (v : Byte) (s : State) : State :=
  { s with flagN := v.getLsbD 7, flagV := v.getLsbD 6, flagD := v.getLsbD 3, flagI := v.getLsbD 2,
           flagZ := v.getLsbD 1, flagC := v.getLsbD 0 }

/-! ### Binary addition (R112) -/

/-- `t = a + m + c`, an unbounded integer (R112). -/
def binarySum (a m : Byte) (c : Bool) : Nat := a.toNat + m.toNat + bit c

/-- `r = t mod 256` (R112). -/
def binaryResult (a m : Byte) (c : Bool) : Byte := BitVec.ofNat 8 (binarySum a m c)

/-- `C <- t[8]` (R112). -/
def binaryCarry (a m : Byte) (c : Bool) : Bool := (binarySum a m c).testBit 8

/-- `V <- ((a ^ r) & (m ^ r))[7]` (R112). -/
def binaryOverflow (a m : Byte) (c : Bool) : Bool :=
  ((a ^^^ binaryResult a m c) &&& (m ^^^ binaryResult a m c)).getLsbD 7

/-- `AddBin(A, m, C)` (R112). -/
def addBinary (m : Byte) (s : State) : State :=
  setNZ (binaryResult s.regA m s.flagC) (setA (binaryResult s.regA m s.flagC)
    (setV (binaryOverflow s.regA m s.flagC) (setC (binaryCarry s.regA m s.flagC) s)))

/-! ### Decimal arithmetic (R113, R114) -/

/-- `b[7:4]`. -/
def highDigit (b : Byte) : Nat := b.toNat / 16

/-- `b[3:0]`. -/
def lowDigit (b : Byte) : Nat := b.toNat % 16

/-- Both nibbles are at most 9 (R113). -/
def validBcd (b : Byte) : Bool := highDigit b ≤ 9 && lowDigit b ≤ 9

/-- `val(b)` (R113). -/
def bcdValue (b : Byte) : Nat := 10 * highDigit b + lowDigit b

/-- `bcd(n)` (R113). -/
def bcdByte (n : Nat) : Byte := BitVec.ofNat 8 (16 * (n / 10) + n % 10)

/-- `N <- any_bit(); V <- any_bit(); Z <- any_bit()`: three draws (R113, R114, U2). -/
def drawNVZ (s : State) : State :=
  { s with flagN := Config.freeBit s.draws, flagV := Config.freeBit (s.draws + 1),
           flagZ := Config.freeBit (s.draws + 2), draws := s.draws + 3 }

/-- `A <- any_byte(); C <- any_bit()` and N, V, Z likewise: five draws (R113, R114, U3). -/
def drawACNVZ (s : State) : State :=
  drawNVZ { s with regA := Config.freeByte s.draws, flagC := Config.freeBit (s.draws + 1), draws := s.draws + 2 }

/-- `t = val(a) + val(m) + c` (R113). -/
def decimalSum (a m : Byte) (c : Bool) : Nat := bcdValue a + bcdValue m + bit c

/-- `t = val(a) - val(m) - (1 - c)` (R114). -/
def decimalDifference (a m : Byte) (c : Bool) : Int := (bcdValue a : Int) - bcdValue m - (1 - bit c)

/-- `DecAdd(A, m, C)` (R113). -/
def addDecimal (m : Byte) (s : State) : State :=
  if validBcd s.regA && validBcd m then
    drawNVZ (setA (bcdByte (decimalSum s.regA m s.flagC % 100)) (setC (100 ≤ decimalSum s.regA m s.flagC) s))
  else drawACNVZ s

/-- `DecSub(A, m, C)`; `mod` gives 0 to 99 for a negative number too (R12, R114). -/
def subDecimal (m : Byte) (s : State) : State :=
  if validBcd s.regA && validBcd m then
    drawNVZ (setA (bcdByte (decimalDifference s.regA m s.flagC % 100).toNat)
      (setC (0 ≤ decimalDifference s.regA m s.flagC) s))
  else drawACNVZ s

/-! ### Compare, bit test, shifts (R150, R154, R130 to R133) -/

/-- `Compare(r, m)`: C is the unsigned comparison, N and Z are those of the 8-bit difference (R150; conflict C1). -/
def compareWith (r m : Byte) (s : State) : State :=
  { s with flagC := m.toNat ≤ r.toNat, flagZ := r == m, flagN := (r - m).getLsbD 7 }

/-- BIT in the modes `a` and `zp`, and in `#` under `BIT_IMM_WRITES_NV`: `writesNV` says whether N and V are written (R154). -/
def testBits (writesNV : Bool) (m : Byte) (s : State) : State :=
  { s with flagZ := (s.regA &&& m) == 0,
           flagN := if writesNV then m.getLsbD 7 else s.flagN,
           flagV := if writesNV then m.getLsbD 6 else s.flagV }

/-- `r = (2 * m) mod 256` (R130). -/
def aslByte (m : Byte) : Byte := m <<< 1

/-- `r = m div 2` (R131). -/
def lsrByte (m : Byte) : Byte := m >>> 1

/-- `r = ((2 * m) mod 256) + C` (R132). -/
def rolByte (m : Byte) (c : Bool) : Byte := (m <<< 1) ||| BitVec.ofNat 8 (bit c)

/-- `r = (m div 2) + 128 * C` (R133). -/
def rorByte (m : Byte) (c : Bool) : Byte := (m >>> 1) ||| BitVec.ofNat 8 (128 * bit c)

end Sys2Proof.Machine
end

