-- ==== Sys2Proof/Machine/Ops.lean ====
section
/-! DEFINITION. The stack, taking an exception, returning from one, and reset. -/

namespace Sys2Proof.Machine

/-- The address of a stack byte: page one (R34, R48). -/
def stackAddr (sp : Byte) : Addr := joinBytes 0x01 sp

/-- `Push(v)`: store at `0x0100 + S`, then S moves down, modulo 256 (R34). -/
def push (v : Byte) (s : State) : Result State :=
  andThen (memWrite (stackAddr s.regS) v s) fun t => .next (setS (t.regS - 1) t)

/-- `Pull()`: S moves up, modulo 256, then the byte at `0x0100 + S` is read (R35). -/
def pull (s : State) : Result (Byte × State) :=
  andThen (memRead (stackAddr (s.regS + 1)) (setS (s.regS + 1) s)) fun v => .next (v, setS (s.regS + 1) s)

/-- Two bytes of memory as a 16-bit value, the low byte read first (R43, R46). -/
def readPair (aLo aHi : Addr) (s : State) : Result Addr :=
  andThen (memRead aLo s) fun lo => andThen (memRead aHi s) fun hi => .next (joinBytes hi lo)

/-- A 16-bit value pushed high byte first, so that its low byte lies at the lower address (R43, R193, R228). -/
def pushPair (w : Addr) (s : State) : Result State :=
  andThen (push (hiByte w) s) fun t => push (loByte w) t

/-- Two bytes pulled, the low byte first (R43, R194, R195). -/
def pullPair (s : State) : Result (Addr × State) :=
  andThen (pull s) fun p => andThen (pull p.2) fun q => .next (joinBytes q.1 p.1, q.2)

/-- The vectors (R229). -/
def nmiVector : Addr := 0xFFFA

/-- The reset vector (R229, R260). -/
def resetVector : Addr := 0xFFFC

/-- The vector that IRQ and BRK share (R229). -/
def irqVector : Addr := 0xFFFE

/-- PC from the vector, and `i_poll <- 1`: the end of an exception entry (R228, R229). -/
def enterThrough (vec : Addr) (s : State) : Result State :=
  andThen (readPair vec (vec + 1) s) fun target => .next (setPoll true (setPC target s))

/-- `Interrupt(vec, b, ret)`, taking an exception: push the return address, high byte first, and the status, set I, clear
D under `INT_CLEARS_D`, go where the vector says (R228, R234). -/
def takeInterrupt (vec : Addr) (b : Bool) (ret : Addr) (s : State) : Result State :=
  andThen (pushPair ret s) fun s1 =>
  andThen (push (packP b s1) s1) fun s2 =>
  enterThrough vec (clearDOnEntry (setI true s2))

/-- The return from an exception: the status, then PC, low byte first, with nothing added (R195, R230). -/
def returnFromInterrupt (s : State) : Result State :=
  andThen (pull s) fun p =>
  andThen (pullPair (unpackP p.1 p.2)) fun q =>
  .next (setPC q.1 q.2)

/-- What reset leaves unspecified, drawn: A, X, Y, S, N, V, Z, C, and D unless `INT_CLEARS_D` clears it (R260, U4). -/
def drawUnspecified (s : State) : State :=
  { s with regA := Config.freeByte s.draws, regX := Config.freeByte (s.draws + 1),
           regY := Config.freeByte (s.draws + 2), regS := Config.freeByte (s.draws + 3),
           flagN := Config.freeBit (s.draws + 4), flagV := Config.freeBit (s.draws + 5),
           flagZ := Config.freeBit (s.draws + 6), flagC := Config.freeBit (s.draws + 7),
           flagD := if s.params.intClearsD then false else Config.freeBit (s.draws + 8),
           draws := s.draws + 9 }

/-- The reset sequence, which writes no memory (R260). -/
def takeReset (s : State) : Result State :=
  andThen (readPair resetVector (resetVector + 1) s) fun target =>
  .next (drawUnspecified (setPoll true
    { setPC target (setI true s) with nmiPending := if s.params.hwInterrupts then false else s.nmiPending }))

end Sys2Proof.Machine
end

