-- ==== Sys2Proof/Machine/Operands.lean ====
section
/-! DEFINITION. The operand forms: what each addressing mode delivers (30_encoding.md R64 to R78). -/

namespace Sys2Proof.Machine

/-- The modes with an effective address that instructions read or write (R68 to R75). -/
inductive MemForm where
  | zp (b : Byte)
  | zpX (b : Byte)
  | zpY (b : Byte)
  | abs (w : Addr)
  | absX (w : Addr)
  | absY (w : Addr)
  | indX (b : Byte)
  | indY (b : Byte)
  deriving DecidableEq, Repr

/-- What a reading instruction takes its operand from: `#` or memory (R67). -/
inductive ReadForm where
  | imm (b : Byte)
  | mem (f : MemForm)
  deriving DecidableEq, Repr

/-- What a shift reads and writes: the accumulator or memory (R66). -/
inductive ShiftForm where
  | acc
  | mem (f : MemForm)
  deriving DecidableEq, Repr

/-- The length of an instruction in this mode (R62). -/
def MemForm.length : MemForm → Nat
  | .zp _ | .zpX _ | .zpY _ | .indX _ | .indY _ => 2
  | .abs _ | .absX _ | .absY _ => 3

/-- The length of an instruction in this mode (R62). -/
def ReadForm.length : ReadForm → Nat
  | .imm _ => 2
  | .mem f => f.length

/-- The length of an instruction in this mode (R62). -/
def ShiftForm.length : ShiftForm → Nat
  | .acc => 1
  | .mem f => f.length

/-- `ea`, with the pointer reads the mode makes: zero-page sums wrap in zero page, 16-bit sums at 65536 (R50, R68 to R75). -/
def MemForm.ea : MemForm → State → Result Addr
  | .zp b, _ => .next (zext16 b)
  | .zpX b, s => .next (zext16 (b + s.regX))
  | .zpY b, s => .next (zext16 (b + s.regY))
  | .abs w, _ => .next w
  | .absX w, s => .next (w + zext16 s.regX)
  | .absY w, s => .next (w + zext16 s.regY)
  | .indX b, s => readPair (zext16 (b + s.regX)) (zext16 (b + s.regX + 1)) s
  | .indY b, s => andThen (readPair (zext16 b) (zext16 (b + 1)) s) fun p => .next (p + zext16 s.regY)

/-- Reading `M` (R64, R67). -/
def ReadForm.read : ReadForm → State → Result Byte
  | .imm b, _ => .next b
  | .mem f, s => andThen (f.ea s) fun a => memRead a s

/-- An instruction that reads `M` and changes only registers and flags, by `effect`; then `PC <- next`. -/
def withOperand (f : ReadForm) (effect : Byte → State → State) (s : State) : Result State :=
  andThen (f.read s) fun m => .next (advance f.length (effect m s))

/-- An instruction that stores `v` and reads no `M`; then `PC <- next` (R64). -/
def storeOperand (f : MemForm) (v : Byte) (s : State) : Result State :=
  andThen (f.ea s) fun a => andThen (memWrite a v s) fun t => .next (advance f.length t)

/-- A read-modify-write of memory: one read and one write of `ea`, `SetNZ` of the result, and `flags`, the flags
written besides, as a function of the byte read (R46, R53). -/
def modifyMemory (f : MemForm) (result : Byte → Byte) (flags : Byte → State → State) (s : State) : Result State :=
  andThen (f.ea s) fun a =>
  andThen (memRead a s) fun m =>
  andThen (memWrite a (result m) s) fun t =>
  .next (advance f.length (setNZ (result m) (flags m t)))

/-- The same where `M` may be the accumulator, which makes no memory access (R66). -/
def modifyOperand (f : ShiftForm) (result : Byte → Byte) (flags : Byte → State → State) (s : State) : Result State :=
  match f with
  | .acc => .next (advance 1 (setNZ (result s.regA) (setA (result s.regA) (flags s.regA s))))
  | .mem g => modifyMemory g result flags s

/-- The target of `JMP (a)`: the pointer's high byte comes from the next address, or under `JMP_IND_PAGE_WRAP` from the
same page (R77). -/
def indirectTarget (w : Addr) (s : State) : Result Addr :=
  readPair w (if s.params.jmpIndPageWrap then joinBytes (hiByte w) (loByte w + 1) else w + 1) s

/-- The target of `JMP (a,x)` (R78). -/
def indexedIndirectTarget (w : Addr) (s : State) : Result Addr :=
  readPair (w + zext16 s.regX) (w + zext16 s.regX + 1) s

end Sys2Proof.Machine
end

