-- ==== Sys2Proof/Machine/Arithmetic.lean ====
section
/-! DEFINITION. ADC and SBC, binary and decimal (41_arithmetic.md R110 to R114). -/

namespace Sys2Proof.Machine

/-- ADC: binary or decimal as D says (R110). -/
def addWithCarry (f : ReadForm) (s : State) : Result State :=
  withOperand f (fun m t => if t.flagD then addDecimal m t else addBinary m t) s

/-- SBC: in binary mode the addition of the complement, `m ^ 0xFF` (R111). -/
def subtractWithBorrow (f : ReadForm) (s : State) : Result State :=
  withOperand f (fun m t => if t.flagD then subDecimal m t else addBinary (m ^^^ 0xFF) t) s

/-- `ADC #`, 69 (R110, mode R67). -/
def execAdcImm (b : Byte) (s : State) : Result State :=
  addWithCarry (.imm b) s

/-- `ADC zp`, 65 (R110, mode R68). -/
def execAdcZp (b : Byte) (s : State) : Result State :=
  addWithCarry (.mem (.zp b)) s

/-- `ADC zp,x`, 75 (R110, mode R69). -/
def execAdcZpX (b : Byte) (s : State) : Result State :=
  addWithCarry (.mem (.zpX b)) s

/-- `ADC a`, 6D (R110, mode R71). -/
def execAdcAbs (w : Addr) (s : State) : Result State :=
  addWithCarry (.mem (.abs w)) s

/-- `ADC a,x`, 7D (R110, mode R72). -/
def execAdcAbsX (w : Addr) (s : State) : Result State :=
  addWithCarry (.mem (.absX w)) s

/-- `ADC a,y`, 79 (R110, mode R73). -/
def execAdcAbsY (w : Addr) (s : State) : Result State :=
  addWithCarry (.mem (.absY w)) s

/-- `ADC (zp,x)`, 61 (R110, mode R74). -/
def execAdcIndX (b : Byte) (s : State) : Result State :=
  addWithCarry (.mem (.indX b)) s

/-- `ADC (zp),y`, 71 (R110, mode R75). -/
def execAdcIndY (b : Byte) (s : State) : Result State :=
  addWithCarry (.mem (.indY b)) s

/-- `SBC #`, E9 (R111, mode R67). -/
def execSbcImm (b : Byte) (s : State) : Result State :=
  subtractWithBorrow (.imm b) s

/-- `SBC zp`, E5 (R111, mode R68). -/
def execSbcZp (b : Byte) (s : State) : Result State :=
  subtractWithBorrow (.mem (.zp b)) s

/-- `SBC zp,x`, F5 (R111, mode R69). -/
def execSbcZpX (b : Byte) (s : State) : Result State :=
  subtractWithBorrow (.mem (.zpX b)) s

/-- `SBC a`, ED (R111, mode R71). -/
def execSbcAbs (w : Addr) (s : State) : Result State :=
  subtractWithBorrow (.mem (.abs w)) s

/-- `SBC a,x`, FD (R111, mode R72). -/
def execSbcAbsX (w : Addr) (s : State) : Result State :=
  subtractWithBorrow (.mem (.absX w)) s

/-- `SBC a,y`, F9 (R111, mode R73). -/
def execSbcAbsY (w : Addr) (s : State) : Result State :=
  subtractWithBorrow (.mem (.absY w)) s

/-- `SBC (zp,x)`, E1 (R111, mode R74). -/
def execSbcIndX (b : Byte) (s : State) : Result State :=
  subtractWithBorrow (.mem (.indX b)) s

/-- `SBC (zp),y`, F1 (R111, mode R75). -/
def execSbcIndY (b : Byte) (s : State) : Result State :=
  subtractWithBorrow (.mem (.indY b)) s

end Sys2Proof.Machine
end

