-- ==== Sys2Proof/Machine/Branch.lean ====
section
/-! DEFINITION. The eight conditional branches (46_branch.md R160 to R168). -/

namespace Sys2Proof.Machine

/-- `Branch(cond)`: the displacement is counted from the address of the next instruction (R76, R160). -/
def branch (cond : Bool) (disp : Byte) (s : State) : Result State :=
  .next (if cond then setPC (s.pc + 2 + sext16 disp) s else advance 2 s)

/-- `BCC r`, 90 (R161, mode R76). -/
def execBcc (disp : Byte) (s : State) : Result State :=
  branch (!s.flagC) disp s

/-- `BCS r`, B0 (R162, mode R76). -/
def execBcs (disp : Byte) (s : State) : Result State :=
  branch s.flagC disp s

/-- `BEQ r`, F0 (R163, mode R76). -/
def execBeq (disp : Byte) (s : State) : Result State :=
  branch s.flagZ disp s

/-- `BMI r`, 30 (R164, mode R76). -/
def execBmi (disp : Byte) (s : State) : Result State :=
  branch s.flagN disp s

/-- `BNE r`, D0 (R165, mode R76). -/
def execBne (disp : Byte) (s : State) : Result State :=
  branch (!s.flagZ) disp s

/-- `BPL r`, 10 (R166, mode R76). -/
def execBpl (disp : Byte) (s : State) : Result State :=
  branch (!s.flagN) disp s

/-- `BVC r`, 50 (R167, mode R76). -/
def execBvc (disp : Byte) (s : State) : Result State :=
  branch (!s.flagV) disp s

/-- `BVS r`, 70 (R168, mode R76). -/
def execBvs (disp : Byte) (s : State) : Result State :=
  branch s.flagV disp s

end Sys2Proof.Machine
end

