-- ==== Sys2Proof/Machine/CompareBit.lean ====
section
/-! DEFINITION. CMP, CPX, CPY, BIT (45_compare_bit.md R150 to R154). -/

namespace Sys2Proof.Machine

/-- `Compare(A, m)` (R151). -/
def compareA (f : ReadForm) (s : State) : Result State := withOperand f (fun m t => compareWith t.regA m t) s

/-- `Compare(X, m)` (R152). -/
def compareX (f : ReadForm) (s : State) : Result State := withOperand f (fun m t => compareWith t.regX m t) s

/-- `Compare(Y, m)` (R153). -/
def compareY (f : ReadForm) (s : State) : Result State := withOperand f (fun m t => compareWith t.regY m t) s

/-- `CMP #`, C9 (R151, mode R67). -/
def execCmpImm (b : Byte) (s : State) : Result State :=
  compareA (.imm b) s

/-- `CMP zp`, C5 (R151, mode R68). -/
def execCmpZp (b : Byte) (s : State) : Result State :=
  compareA (.mem (.zp b)) s

/-- `CMP zp,x`, D5 (R151, mode R69). -/
def execCmpZpX (b : Byte) (s : State) : Result State :=
  compareA (.mem (.zpX b)) s

/-- `CMP a`, CD (R151, mode R71). -/
def execCmpAbs (w : Addr) (s : State) : Result State :=
  compareA (.mem (.abs w)) s

/-- `CMP a,x`, DD (R151, mode R72). -/
def execCmpAbsX (w : Addr) (s : State) : Result State :=
  compareA (.mem (.absX w)) s

/-- `CMP a,y`, D9 (R151, mode R73). -/
def execCmpAbsY (w : Addr) (s : State) : Result State :=
  compareA (.mem (.absY w)) s

/-- `CMP (zp,x)`, C1 (R151, mode R74). -/
def execCmpIndX (b : Byte) (s : State) : Result State :=
  compareA (.mem (.indX b)) s

/-- `CMP (zp),y`, D1 (R151, mode R75). -/
def execCmpIndY (b : Byte) (s : State) : Result State :=
  compareA (.mem (.indY b)) s

/-- `CPX #`, E0 (R152, mode R67). -/
def execCpxImm (b : Byte) (s : State) : Result State :=
  compareX (.imm b) s

/-- `CPX zp`, E4 (R152, mode R68). -/
def execCpxZp (b : Byte) (s : State) : Result State :=
  compareX (.mem (.zp b)) s

/-- `CPX a`, EC (R152, mode R71). -/
def execCpxAbs (w : Addr) (s : State) : Result State :=
  compareX (.mem (.abs w)) s

/-- `CPY #`, C0 (R153, mode R67). -/
def execCpyImm (b : Byte) (s : State) : Result State :=
  compareY (.imm b) s

/-- `CPY zp`, C4 (R153, mode R68). -/
def execCpyZp (b : Byte) (s : State) : Result State :=
  compareY (.mem (.zp b)) s

/-- `CPY a`, CC (R153, mode R71). -/
def execCpyAbs (w : Addr) (s : State) : Result State :=
  compareY (.mem (.abs w)) s

/-- `BIT #`, 89 (R154, mode R67). -/
def execBitImm (b : Byte) (s : State) : Result State :=
  withOperand (.imm b) (testBits s.params.bitImmWritesNV) s

/-- `BIT zp`, 24 (R154, mode R68). -/
def execBitZp (b : Byte) (s : State) : Result State :=
  withOperand (.mem (.zp b)) (testBits true) s

/-- `BIT a`, 2C (R154, mode R71). -/
def execBitAbs (w : Addr) (s : State) : Result State :=
  withOperand (.mem (.abs w)) (testBits true) s

end Sys2Proof.Machine
end

