-- ==== Sys2Proof/Machine/FlagsMisc.lean ====
section
/-! DEFINITION. Set and clear a flag, NOP, BRK (49_flags_misc.md R200 to R208). -/

namespace Sys2Proof.Machine

/-- `SEC i`, 38 (R200). -/
def execSec (s : State) : Result State :=
  .next (advance 1 (setC true s))

/-- `SED i`, F8 (R201). -/
def execSed (s : State) : Result State :=
  .next (advance 1 (setD true s))

/-- `SEI i`, 78 (R202). -/
def execSei (s : State) : Result State :=
  .next (advance 1 (setPoll s.flagI (setI true s)))

/-- `CLC i`, 18 (R203). -/
def execClc (s : State) : Result State :=
  .next (advance 1 (setC false s))

/-- `CLD i`, D8 (R204). -/
def execCld (s : State) : Result State :=
  .next (advance 1 (setD false s))

/-- `CLI i`, 58 (R205). -/
def execCli (s : State) : Result State :=
  .next (advance 1 (setPoll s.flagI (setI false s)))

/-- `CLV i`, B8 (R206). -/
def execClv (s : State) : Result State :=
  .next (advance 1 (setV false s))

/-- `NOP i`, EA (R207). -/
def execNop (s : State) : Result State :=
  .next (advance 1 s)

/-- `BRK i`, 00 (R208). -/
def execBrk (s : State) : Result State :=
  takeInterrupt irqVector true (s.pc + 2) s

end Sys2Proof.Machine
end

