-- ==== Sys2Proof/Machine/IncDec.lean ====
section
/-! DEFINITION. Increment and decrement (42_inc_dec.md R120 to R125). -/

namespace Sys2Proof.Machine

/-- `M <- (m + 1) mod 256` (R120). -/
def incrementMemory (f : MemForm) (s : State) : Result State := modifyMemory f (fun m => m + 1) (fun _ t => t) s

/-- `M <- (m - 1) mod 256` (R123). -/
def decrementMemory (f : MemForm) (s : State) : Result State := modifyMemory f (fun m => m - 1) (fun _ t => t) s

/-- `INC zp`, E6 (R120, mode R68). -/
def execIncZp (b : Byte) (s : State) : Result State :=
  incrementMemory (.zp b) s

/-- `INC zp,x`, F6 (R120, mode R69). -/
def execIncZpX (b : Byte) (s : State) : Result State :=
  incrementMemory (.zpX b) s

/-- `INC a`, EE (R120, mode R71). -/
def execIncAbs (w : Addr) (s : State) : Result State :=
  incrementMemory (.abs w) s

/-- `INC a,x`, FE (R120, mode R72). -/
def execIncAbsX (w : Addr) (s : State) : Result State :=
  incrementMemory (.absX w) s

/-- `INX i`, E8 (R121). -/
def execInx (s : State) : Result State :=
  .next (advance 1 (setNZ (s.regX + 1) (setX (s.regX + 1) s)))

/-- `INY i`, C8 (R122). -/
def execIny (s : State) : Result State :=
  .next (advance 1 (setNZ (s.regY + 1) (setY (s.regY + 1) s)))

/-- `DEC zp`, C6 (R123, mode R68). -/
def execDecZp (b : Byte) (s : State) : Result State :=
  decrementMemory (.zp b) s

/-- `DEC zp,x`, D6 (R123, mode R69). -/
def execDecZpX (b : Byte) (s : State) : Result State :=
  decrementMemory (.zpX b) s

/-- `DEC a`, CE (R123, mode R71). -/
def execDecAbs (w : Addr) (s : State) : Result State :=
  decrementMemory (.abs w) s

/-- `DEC a,x`, DE (R123, mode R72). -/
def execDecAbsX (w : Addr) (s : State) : Result State :=
  decrementMemory (.absX w) s

/-- `DEX i`, CA (R124). -/
def execDex (s : State) : Result State :=
  .next (advance 1 (setNZ (s.regX - 1) (setX (s.regX - 1) s)))

/-- `DEY i`, 88 (R125). -/
def execDey (s : State) : Result State :=
  .next (advance 1 (setNZ (s.regY - 1) (setY (s.regY - 1) s)))

end Sys2Proof.Machine
end

