-- ==== Sys2Proof/Machine/Jump.lean ====
section
/-! DEFINITION. Jumps, subroutine calls and returns (48_jump_subroutine.md R190 to R195). -/

namespace Sys2Proof.Machine

/-- `JMP a`, 4C (R190, mode R71). -/
def execJmpAbs (w : Addr) (s : State) : Result State :=
  .next (setPC w s)

/-- `JMP (a)`, 6C (R192, mode R77). -/
def execJmpInd (w : Addr) (s : State) : Result State :=
  andThen (indirectTarget w s) fun target => .next (setPC target s)

/-- `JMP (a,x)`, 7C (R191, mode R78). -/
def execJmpIndAbsX (w : Addr) (s : State) : Result State :=
  andThen (indexedIndirectTarget w s) fun target => .next (setPC target s)

/-- `JSR a`, 20 (R193, mode R71). -/
def execJsr (w : Addr) (s : State) : Result State :=
  andThen (pushPair (s.pc + 2) s) fun t => .next (setPC w t)

/-- `RTS i`, 60 (R194). -/
def execRts (s : State) : Result State :=
  andThen (pullPair s) fun p => .next (setPC (p.1 + 1) p.2)

/-- `RTI i`, 40 (R195). -/
def execRti (s : State) : Result State :=
  returnFromInterrupt s

end Sys2Proof.Machine
end

