-- ==== Sys2Proof/Machine/LoadStore.lean ====
section
/-! DEFINITION. Load and store (40_load_store.md R100 to R105). -/

namespace Sys2Proof.Machine

/-- `A <- m; SetNZ(m)` (R100). -/
def loadA (f : ReadForm) (s : State) : Result State := withOperand f (fun m t => setNZ m (setA m t)) s

/-- `X <- m; SetNZ(m)` (R101). -/
def loadX (f : ReadForm) (s : State) : Result State := withOperand f (fun m t => setNZ m (setX m t)) s

/-- `Y <- m; SetNZ(m)` (R102). -/
def loadY (f : ReadForm) (s : State) : Result State := withOperand f (fun m t => setNZ m (setY m t)) s

/-- `M <- A` (R103). -/
def storeA (f : MemForm) (s : State) : Result State := storeOperand f s.regA s

/-- `M <- X` (R104). -/
def storeX (f : MemForm) (s : State) : Result State := storeOperand f s.regX s

/-- `M <- Y` (R105). -/
def storeY (f : MemForm) (s : State) : Result State := storeOperand f s.regY s

/-- `LDA #`, A9 (R100, mode R67). -/
def execLdaImm (b : Byte) (s : State) : Result State :=
  loadA (.imm b) s

/-- `LDA zp`, A5 (R100, mode R68). -/
def execLdaZp (b : Byte) (s : State) : Result State :=
  loadA (.mem (.zp b)) s

/-- `LDA zp,x`, B5 (R100, mode R69). -/
def execLdaZpX (b : Byte) (s : State) : Result State :=
  loadA (.mem (.zpX b)) s

/-- `LDA a`, AD (R100, mode R71). -/
def execLdaAbs (w : Addr) (s : State) : Result State :=
  loadA (.mem (.abs w)) s

/-- `LDA a,x`, BD (R100, mode R72). -/
def execLdaAbsX (w : Addr) (s : State) : Result State :=
  loadA (.mem (.absX w)) s

/-- `LDA a,y`, B9 (R100, mode R73). -/
def execLdaAbsY (w : Addr) (s : State) : Result State :=
  loadA (.mem (.absY w)) s

/-- `LDA (zp,x)`, A1 (R100, mode R74). -/
def execLdaIndX (b : Byte) (s : State) : Result State :=
  loadA (.mem (.indX b)) s

/-- `LDA (zp),y`, B1 (R100, mode R75). -/
def execLdaIndY (b : Byte) (s : State) : Result State :=
  loadA (.mem (.indY b)) s

/-- `LDX #`, A2 (R101, mode R67). -/
def execLdxImm (b : Byte) (s : State) : Result State :=
  loadX (.imm b) s

/-- `LDX zp`, A6 (R101, mode R68). -/
def execLdxZp (b : Byte) (s : State) : Result State :=
  loadX (.mem (.zp b)) s

/-- `LDX zp,y`, B6 (R101, mode R70). -/
def execLdxZpY (b : Byte) (s : State) : Result State :=
  loadX (.mem (.zpY b)) s

/-- `LDX a`, AE (R101, mode R71). -/
def execLdxAbs (w : Addr) (s : State) : Result State :=
  loadX (.mem (.abs w)) s

/-- `LDX a,y`, BE (R101, mode R73). -/
def execLdxAbsY (w : Addr) (s : State) : Result State :=
  loadX (.mem (.absY w)) s

/-- `LDY #`, A0 (R102, mode R67). -/
def execLdyImm (b : Byte) (s : State) : Result State :=
  loadY (.imm b) s

/-- `LDY zp`, A4 (R102, mode R68). -/
def execLdyZp (b : Byte) (s : State) : Result State :=
  loadY (.mem (.zp b)) s

/-- `LDY zp,x`, B4 (R102, mode R69). -/
def execLdyZpX (b : Byte) (s : State) : Result State :=
  loadY (.mem (.zpX b)) s

/-- `LDY a`, AC (R102, mode R71). -/
def execLdyAbs (w : Addr) (s : State) : Result State :=
  loadY (.mem (.abs w)) s

/-- `LDY a,x`, BC (R102, mode R72). -/
def execLdyAbsX (w : Addr) (s : State) : Result State :=
  loadY (.mem (.absX w)) s

/-- `STA zp`, 85 (R103, mode R68). -/
def execStaZp (b : Byte) (s : State) : Result State :=
  storeA (.zp b) s

/-- `STA zp,x`, 95 (R103, mode R69). -/
def execStaZpX (b : Byte) (s : State) : Result State :=
  storeA (.zpX b) s

/-- `STA a`, 8D (R103, mode R71). -/
def execStaAbs (w : Addr) (s : State) : Result State :=
  storeA (.abs w) s

/-- `STA a,x`, 9D (R103, mode R72). -/
def execStaAbsX (w : Addr) (s : State) : Result State :=
  storeA (.absX w) s

/-- `STA a,y`, 99 (R103, mode R73). -/
def execStaAbsY (w : Addr) (s : State) : Result State :=
  storeA (.absY w) s

/-- `STA (zp,x)`, 81 (R103, mode R74). -/
def execStaIndX (b : Byte) (s : State) : Result State :=
  storeA (.indX b) s

/-- `STA (zp),y`, 91 (R103, mode R75). -/
def execStaIndY (b : Byte) (s : State) : Result State :=
  storeA (.indY b) s

/-- `STX zp`, 86 (R104, mode R68). -/
def execStxZp (b : Byte) (s : State) : Result State :=
  storeX (.zp b) s

/-- `STX zp,y`, 96 (R104, mode R70). -/
def execStxZpY (b : Byte) (s : State) : Result State :=
  storeX (.zpY b) s

/-- `STX a`, 8E (R104, mode R71). -/
def execStxAbs (w : Addr) (s : State) : Result State :=
  storeX (.abs w) s

/-- `STY zp`, 84 (R105, mode R68). -/
def execStyZp (b : Byte) (s : State) : Result State :=
  storeY (.zp b) s

/-- `STY zp,x`, 94 (R105, mode R69). -/
def execStyZpX (b : Byte) (s : State) : Result State :=
  storeY (.zpX b) s

/-- `STY a`, 8C (R105, mode R71). -/
def execStyAbs (w : Addr) (s : State) : Result State :=
  storeY (.abs w) s

end Sys2Proof.Machine
end

