-- ==== Sys2Proof/Machine/Logic.lean ====
section
/-! DEFINITION. AND, ORA, EOR (44_logic.md R140 to R142). -/

namespace Sys2Proof.Machine

/-- `A <- A & m; SetNZ(A)` (R140). -/
def andWithA (f : ReadForm) (s : State) : Result State :=
  withOperand f (fun m t => setNZ (t.regA &&& m) (setA (t.regA &&& m) t)) s

/-- `A <- A | m; SetNZ(A)` (R141). -/
def orWithA (f : ReadForm) (s : State) : Result State :=
  withOperand f (fun m t => setNZ (t.regA ||| m) (setA (t.regA ||| m) t)) s

/-- `A <- A ^ m; SetNZ(A)` (R142). -/
def eorWithA (f : ReadForm) (s : State) : Result State :=
  withOperand f (fun m t => setNZ (t.regA ^^^ m) (setA (t.regA ^^^ m) t)) s

/-- `AND #`, 29 (R140, mode R67). -/
def execAndImm (b : Byte) (s : State) : Result State :=
  andWithA (.imm b) s

/-- `AND zp`, 25 (R140, mode R68). -/
def execAndZp (b : Byte) (s : State) : Result State :=
  andWithA (.mem (.zp b)) s

/-- `AND zp,x`, 35 (R140, mode R69). -/
def execAndZpX (b : Byte) (s : State) : Result State :=
  andWithA (.mem (.zpX b)) s

/-- `AND a`, 2D (R140, mode R71). -/
def execAndAbs (w : Addr) (s : State) : Result State :=
  andWithA (.mem (.abs w)) s

/-- `AND a,x`, 3D (R140, mode R72). -/
def execAndAbsX (w : Addr) (s : State) : Result State :=
  andWithA (.mem (.absX w)) s

/-- `AND a,y`, 39 (R140, mode R73). -/
def execAndAbsY (w : Addr) (s : State) : Result State :=
  andWithA (.mem (.absY w)) s

/-- `AND (zp,x)`, 21 (R140, mode R74). -/
def execAndIndX (b : Byte) (s : State) : Result State :=
  andWithA (.mem (.indX b)) s

/-- `AND (zp),y`, 31 (R140, mode R75). -/
def execAndIndY (b : Byte) (s : State) : Result State :=
  andWithA (.mem (.indY b)) s

/-- `ORA #`, 09 (R141, mode R67). -/
def execOraImm (b : Byte) (s : State) : Result State :=
  orWithA (.imm b) s

/-- `ORA zp`, 05 (R141, mode R68). -/
def execOraZp (b : Byte) (s : State) : Result State :=
  orWithA (.mem (.zp b)) s

/-- `ORA zp,x`, 15 (R141, mode R69). -/
def execOraZpX (b : Byte) (s : State) : Result State :=
  orWithA (.mem (.zpX b)) s

/-- `ORA a`, 0D (R141, mode R71). -/
def execOraAbs (w : Addr) (s : State) : Result State :=
  orWithA (.mem (.abs w)) s

/-- `ORA a,x`, 1D (R141, mode R72). -/
def execOraAbsX (w : Addr) (s : State) : Result State :=
  orWithA (.mem (.absX w)) s

/-- `ORA a,y`, 19 (R141, mode R73). -/
def execOraAbsY (w : Addr) (s : State) : Result State :=
  orWithA (.mem (.absY w)) s

/-- `ORA (zp,x)`, 01 (R141, mode R74). -/
def execOraIndX (b : Byte) (s : State) : Result State :=
  orWithA (.mem (.indX b)) s

/-- `ORA (zp),y`, 11 (R141, mode R75). -/
def execOraIndY (b : Byte) (s : State) : Result State :=
  orWithA (.mem (.indY b)) s

/-- `EOR #`, 49 (R142, mode R67). -/
def execEorImm (b : Byte) (s : State) : Result State :=
  eorWithA (.imm b) s

/-- `EOR zp`, 45 (R142, mode R68). -/
def execEorZp (b : Byte) (s : State) : Result State :=
  eorWithA (.mem (.zp b)) s

/-- `EOR zp,x`, 55 (R142, mode R69). -/
def execEorZpX (b : Byte) (s : State) : Result State :=
  eorWithA (.mem (.zpX b)) s

/-- `EOR a`, 4D (R142, mode R71). -/
def execEorAbs (w : Addr) (s : State) : Result State :=
  eorWithA (.mem (.abs w)) s

/-- `EOR a,x`, 5D (R142, mode R72). -/
def execEorAbsX (w : Addr) (s : State) : Result State :=
  eorWithA (.mem (.absX w)) s

/-- `EOR a,y`, 59 (R142, mode R73). -/
def execEorAbsY (w : Addr) (s : State) : Result State :=
  eorWithA (.mem (.absY w)) s

/-- `EOR (zp,x)`, 41 (R142, mode R74). -/
def execEorIndX (b : Byte) (s : State) : Result State :=
  eorWithA (.mem (.indX b)) s

/-- `EOR (zp),y`, 51 (R142, mode R75). -/
def execEorIndY (b : Byte) (s : State) : Result State :=
  eorWithA (.mem (.indY b)) s

end Sys2Proof.Machine
end

