-- ==== Sys2Proof/Machine/ShiftRotate.lean ====
section
/-! DEFINITION. Shift and rotate by one bit, of the accumulator or of memory (43_shift_rotate.md R130 to R133). -/

namespace Sys2Proof.Machine

/-- ASL: C takes the old bit 7 (R130). -/
def shiftLeft (f : ShiftForm) (s : State) : Result State :=
  modifyOperand f aslByte (fun m t => setC (m.getLsbD 7) t) s

/-- LSR: C takes the old bit 0 (R131). -/
def shiftRight (f : ShiftForm) (s : State) : Result State :=
  modifyOperand f lsrByte (fun m t => setC (m.getLsbD 0) t) s

/-- ROL: the old C enters bit 0, C takes the old bit 7 (R132). -/
def rotateLeft (f : ShiftForm) (s : State) : Result State :=
  modifyOperand f (fun m => rolByte m s.flagC) (fun m t => setC (m.getLsbD 7) t) s

/-- ROR: the old C enters bit 7, C takes the old bit 0 (R133). -/
def rotateRight (f : ShiftForm) (s : State) : Result State :=
  modifyOperand f (fun m => rorByte m s.flagC) (fun m t => setC (m.getLsbD 0) t) s

/-- `ASL A`, 0A (R130, mode R66). -/
def execAslA (s : State) : Result State :=
  shiftLeft .acc s

/-- `ASL zp`, 06 (R130, mode R68). -/
def execAslZp (b : Byte) (s : State) : Result State :=
  shiftLeft (.mem (.zp b)) s

/-- `ASL zp,x`, 16 (R130, mode R69). -/
def execAslZpX (b : Byte) (s : State) : Result State :=
  shiftLeft (.mem (.zpX b)) s

/-- `ASL a`, 0E (R130, mode R71). -/
def execAslAbs (w : Addr) (s : State) : Result State :=
  shiftLeft (.mem (.abs w)) s

/-- `ASL a,x`, 1E (R130, mode R72). -/
def execAslAbsX (w : Addr) (s : State) : Result State :=
  shiftLeft (.mem (.absX w)) s

/-- `LSR A`, 4A (R131, mode R66). -/
def execLsrA (s : State) : Result State :=
  shiftRight .acc s

/-- `LSR zp`, 46 (R131, mode R68). -/
def execLsrZp (b : Byte) (s : State) : Result State :=
  shiftRight (.mem (.zp b)) s

/-- `LSR zp,x`, 56 (R131, mode R69). -/
def execLsrZpX (b : Byte) (s : State) : Result State :=
  shiftRight (.mem (.zpX b)) s

/-- `LSR a`, 4E (R131, mode R71). -/
def execLsrAbs (w : Addr) (s : State) : Result State :=
  shiftRight (.mem (.abs w)) s

/-- `LSR a,x`, 5E (R131, mode R72). -/
def execLsrAbsX (w : Addr) (s : State) : Result State :=
  shiftRight (.mem (.absX w)) s

/-- `ROL A`, 2A (R132, mode R66). -/
def execRolA (s : State) : Result State :=
  rotateLeft .acc s

/-- `ROL zp`, 26 (R132, mode R68). -/
def execRolZp (b : Byte) (s : State) : Result State :=
  rotateLeft (.mem (.zp b)) s

/-- `ROL zp,x`, 36 (R132, mode R69). -/
def execRolZpX (b : Byte) (s : State) : Result State :=
  rotateLeft (.mem (.zpX b)) s

/-- `ROL a`, 2E (R132, mode R71). -/
def execRolAbs (w : Addr) (s : State) : Result State :=
  rotateLeft (.mem (.abs w)) s

/-- `ROL a,x`, 3E (R132, mode R72). -/
def execRolAbsX (w : Addr) (s : State) : Result State :=
  rotateLeft (.mem (.absX w)) s

/-- `ROR A`, 6A (R133, mode R66). -/
def execRorA (s : State) : Result State :=
  rotateRight .acc s

/-- `ROR zp`, 66 (R133, mode R68). -/
def execRorZp (b : Byte) (s : State) : Result State :=
  rotateRight (.mem (.zp b)) s

/-- `ROR zp,x`, 76 (R133, mode R69). -/
def execRorZpX (b : Byte) (s : State) : Result State :=
  rotateRight (.mem (.zpX b)) s

/-- `ROR a`, 6E (R133, mode R71). -/
def execRorAbs (w : Addr) (s : State) : Result State :=
  rotateRight (.mem (.abs w)) s

/-- `ROR a,x`, 7E (R133, mode R72). -/
def execRorAbsX (w : Addr) (s : State) : Result State :=
  rotateRight (.mem (.absX w)) s

end Sys2Proof.Machine
end

