-- ==== Sys2Proof/Machine/TransferStack.lean ====
section
/-! DEFINITION. Transfers, pushes and pulls (47_transfer_stack.md R170 to R179). -/

namespace Sys2Proof.Machine

/-- `TAX i`, AA (R170). -/
def execTax (s : State) : Result State :=
  .next (advance 1 (setNZ s.regA (setX s.regA s)))

/-- `TXA i`, 8A (R171). -/
def execTxa (s : State) : Result State :=
  .next (advance 1 (setNZ s.regX (setA s.regX s)))

/-- `TAY i`, A8 (R172). -/
def execTay (s : State) : Result State :=
  .next (advance 1 (setNZ s.regA (setY s.regA s)))

/-- `TYA i`, 98 (R173). -/
def execTya (s : State) : Result State :=
  .next (advance 1 (setNZ s.regY (setA s.regY s)))

/-- `TSX i`, BA (R174). -/
def execTsx (s : State) : Result State :=
  .next (advance 1 (setNZ s.regS (setX s.regS s)))

/-- `TXS i`, 9A (R175). -/
def execTxs (s : State) : Result State :=
  .next (advance 1 (if s.params.txsWritesNZ then setNZ s.regX (setS s.regX s) else setS s.regX s))

/-- `PHA i`, 48 (R176). -/
def execPha (s : State) : Result State :=
  andThen (push s.regA s) fun t => .next (advance 1 t)

/-- `PLA i`, 68 (R177). -/
def execPla (s : State) : Result State :=
  andThen (pull s) fun p => .next (advance 1 (setNZ p.1 (setA p.1 p.2)))

/-- `PHP i`, 08 (R178). -/
def execPhp (s : State) : Result State :=
  andThen (push (packP true s) s) fun t => .next (advance 1 t)

/-- `PLP i`, 28 (R179). -/
def execPlp (s : State) : Result State :=
  andThen (pull s) fun p => .next (advance 1 (setPoll s.flagI (unpackP p.1 p.2)))

end Sys2Proof.Machine
end

