-- ==== Sys2Proof/Syntax.lean ====
section
/-! DEFINITION. The instructions: one constructor for each of the 153 rows of opcode_table.json (30_encoding.md R79, R80). A
two-byte instruction carries its operand byte `b1` (for a branch, the displacement), a three-byte instruction the 16-bit
value `b2:b1` (R61, R64). Nothing here is a raw encoding. -/

namespace Sys2Proof

/-- The 56 mnemonics (00_scope.md R2). -/
inductive Mnemonic where
  | lda | ldx | ldy | sta | stx | sty | adc | sbc
  | inc | inx | iny | dec | dex | dey | asl | lsr
  | rol | ror | and | ora | eor | cmp | cpx | cpy
  | bit | bcc | bcs | beq | bmi | bne | bpl | bvc
  | bvs | tax | txa | tay | tya | tsx | txs | pha
  | pla | php | plp | jmp | jsr | rts | rti | sec
  | sed | sei | clc | cld | cli | clv | nop | brk
  deriving DecidableEq, Repr

/-- The 14 addressing modes, each named by its conventional name; the source's symbol in the comment (R62). -/
inductive Mode where
  /-- `i` (R65) -/
  | implied
  /-- `A` (R66) -/
  | accumulator
  /-- `#` (R67) -/
  | immediate
  /-- `zp` (R68) -/
  | zeroPage
  /-- `zp,x` (R69) -/
  | zeroPageX
  /-- `zp,y` (R70) -/
  | zeroPageY
  /-- `a` (R71) -/
  | absolute
  /-- `a,x` (R72) -/
  | absoluteX
  /-- `a,y` (R73) -/
  | absoluteY
  /-- `(zp,x)` (R74) -/
  | indexedIndirect
  /-- `(zp),y` (R75) -/
  | indirectIndexed
  /-- `(a)` (R77) -/
  | absoluteIndirect
  /-- `(a,x)` (R78) -/
  | absoluteIndexedIndirect
  /-- `r` (R76) -/
  | relative
  deriving DecidableEq, Repr

/-- The instructions, in the source's order (R80). Each docstring gives mnemonic, mode symbol, opcode byte and rule. -/
inductive Instr where
  /-- `LDA #`, A9 (R100). -/
  | ldaImm (b : Byte)
  /-- `LDA zp`, A5 (R100). -/
  | ldaZp (b : Byte)
  /-- `LDA zp,x`, B5 (R100). -/
  | ldaZpX (b : Byte)
  /-- `LDA a`, AD (R100). -/
  | ldaAbs (w : Addr)
  /-- `LDA a,x`, BD (R100). -/
  | ldaAbsX (w : Addr)
  /-- `LDA a,y`, B9 (R100). -/
  | ldaAbsY (w : Addr)
  /-- `LDA (zp,x)`, A1 (R100). -/
  | ldaIndX (b : Byte)
  /-- `LDA (zp),y`, B1 (R100). -/
  | ldaIndY (b : Byte)
  /-- `LDX #`, A2 (R101). -/
  | ldxImm (b : Byte)
  /-- `LDX zp`, A6 (R101). -/
  | ldxZp (b : Byte)
  /-- `LDX zp,y`, B6 (R101). -/
  | ldxZpY (b : Byte)
  /-- `LDX a`, AE (R101). -/
  | ldxAbs (w : Addr)
  /-- `LDX a,y`, BE (R101). -/
  | ldxAbsY (w : Addr)
  /-- `LDY #`, A0 (R102). -/
  | ldyImm (b : Byte)
  /-- `LDY zp`, A4 (R102). -/
  | ldyZp (b : Byte)
  /-- `LDY zp,x`, B4 (R102). -/
  | ldyZpX (b : Byte)
  /-- `LDY a`, AC (R102). -/
  | ldyAbs (w : Addr)
  /-- `LDY a,x`, BC (R102). -/
  | ldyAbsX (w : Addr)
  /-- `STA zp`, 85 (R103). -/
  | staZp (b : Byte)
  /-- `STA zp,x`, 95 (R103). -/
  | staZpX (b : Byte)
  /-- `STA a`, 8D (R103). -/
  | staAbs (w : Addr)
  /-- `STA a,x`, 9D (R103). -/
  | staAbsX (w : Addr)
  /-- `STA a,y`, 99 (R103). -/
  | staAbsY (w : Addr)
  /-- `STA (zp,x)`, 81 (R103). -/
  | staIndX (b : Byte)
  /-- `STA (zp),y`, 91 (R103). -/
  | staIndY (b : Byte)
  /-- `STX zp`, 86 (R104). -/
  | stxZp (b : Byte)
  /-- `STX zp,y`, 96 (R104). -/
  | stxZpY (b : Byte)
  /-- `STX a`, 8E (R104). -/
  | stxAbs (w : Addr)
  /-- `STY zp`, 84 (R105). -/
  | styZp (b : Byte)
  /-- `STY zp,x`, 94 (R105). -/
  | styZpX (b : Byte)
  /-- `STY a`, 8C (R105). -/
  | styAbs (w : Addr)
  /-- `ADC #`, 69 (R110). -/
  | adcImm (b : Byte)
  /-- `ADC zp`, 65 (R110). -/
  | adcZp (b : Byte)
  /-- `ADC zp,x`, 75 (R110). -/
  | adcZpX (b : Byte)
  /-- `ADC a`, 6D (R110). -/
  | adcAbs (w : Addr)
  /-- `ADC a,x`, 7D (R110). -/
  | adcAbsX (w : Addr)
  /-- `ADC a,y`, 79 (R110). -/
  | adcAbsY (w : Addr)
  /-- `ADC (zp,x)`, 61 (R110). -/
  | adcIndX (b : Byte)
  /-- `ADC (zp),y`, 71 (R110). -/
  | adcIndY (b : Byte)
  /-- `SBC #`, E9 (R111). -/
  | sbcImm (b : Byte)
  /-- `SBC zp`, E5 (R111). -/
  | sbcZp (b : Byte)
  /-- `SBC zp,x`, F5 (R111). -/
  | sbcZpX (b : Byte)
  /-- `SBC a`, ED (R111). -/
  | sbcAbs (w : Addr)
  /-- `SBC a,x`, FD (R111). -/
  | sbcAbsX (w : Addr)
  /-- `SBC a,y`, F9 (R111). -/
  | sbcAbsY (w : Addr)
  /-- `SBC (zp,x)`, E1 (R111). -/
  | sbcIndX (b : Byte)
  /-- `SBC (zp),y`, F1 (R111). -/
  | sbcIndY (b : Byte)
  /-- `INC zp`, E6 (R120). -/
  | incZp (b : Byte)
  /-- `INC zp,x`, F6 (R120). -/
  | incZpX (b : Byte)
  /-- `INC a`, EE (R120). -/
  | incAbs (w : Addr)
  /-- `INC a,x`, FE (R120). -/
  | incAbsX (w : Addr)
  /-- `INX i`, E8 (R121). -/
  | inx
  /-- `INY i`, C8 (R122). -/
  | iny
  /-- `DEC zp`, C6 (R123). -/
  | decZp (b : Byte)
  /-- `DEC zp,x`, D6 (R123). -/
  | decZpX (b : Byte)
  /-- `DEC a`, CE (R123). -/
  | decAbs (w : Addr)
  /-- `DEC a,x`, DE (R123). -/
  | decAbsX (w : Addr)
  /-- `DEX i`, CA (R124). -/
  | dex
  /-- `DEY i`, 88 (R125). -/
  | dey
  /-- `ASL A`, 0A (R130). -/
  | aslA
  /-- `ASL zp`, 06 (R130). -/
  | aslZp (b : Byte)
  /-- `ASL zp,x`, 16 (R130). -/
  | aslZpX (b : Byte)
  /-- `ASL a`, 0E (R130). -/
  | aslAbs (w : Addr)
  /-- `ASL a,x`, 1E (R130). -/
  | aslAbsX (w : Addr)
  /-- `LSR A`, 4A (R131). -/
  | lsrA
  /-- `LSR zp`, 46 (R131). -/
  | lsrZp (b : Byte)
  /-- `LSR zp,x`, 56 (R131). -/
  | lsrZpX (b : Byte)
  /-- `LSR a`, 4E (R131). -/
  | lsrAbs (w : Addr)
  /-- `LSR a,x`, 5E (R131). -/
  | lsrAbsX (w : Addr)
  /-- `ROL A`, 2A (R132). -/
  | rolA
  /-- `ROL zp`, 26 (R132). -/
  | rolZp (b : Byte)
  /-- `ROL zp,x`, 36 (R132). -/
  | rolZpX (b : Byte)
  /-- `ROL a`, 2E (R132). -/
  | rolAbs (w : Addr)
  /-- `ROL a,x`, 3E (R132). -/
  | rolAbsX (w : Addr)
  /-- `ROR A`, 6A (R133). -/
  | rorA
  /-- `ROR zp`, 66 (R133). -/
  | rorZp (b : Byte)
  /-- `ROR zp,x`, 76 (R133). -/
  | rorZpX (b : Byte)
  /-- `ROR a`, 6E (R133). -/
  | rorAbs (w : Addr)
  /-- `ROR a,x`, 7E (R133). -/
  | rorAbsX (w : Addr)
  /-- `AND #`, 29 (R140). -/
  | andImm (b : Byte)
  /-- `AND zp`, 25 (R140). -/
  | andZp (b : Byte)
  /-- `AND zp,x`, 35 (R140). -/
  | andZpX (b : Byte)
  /-- `AND a`, 2D (R140). -/
  | andAbs (w : Addr)
  /-- `AND a,x`, 3D (R140). -/
  | andAbsX (w : Addr)
  /-- `AND a,y`, 39 (R140). -/
  | andAbsY (w : Addr)
  /-- `AND (zp,x)`, 21 (R140). -/
  | andIndX (b : Byte)
  /-- `AND (zp),y`, 31 (R140). -/
  | andIndY (b : Byte)
  /-- `ORA #`, 09 (R141). -/
  | oraImm (b : Byte)
  /-- `ORA zp`, 05 (R141). -/
  | oraZp (b : Byte)
  /-- `ORA zp,x`, 15 (R141). -/
  | oraZpX (b : Byte)
  /-- `ORA a`, 0D (R141). -/
  | oraAbs (w : Addr)
  /-- `ORA a,x`, 1D (R141). -/
  | oraAbsX (w : Addr)
  /-- `ORA a,y`, 19 (R141). -/
  | oraAbsY (w : Addr)
  /-- `ORA (zp,x)`, 01 (R141). -/
  | oraIndX (b : Byte)
  /-- `ORA (zp),y`, 11 (R141). -/
  | oraIndY (b : Byte)
  /-- `EOR #`, 49 (R142). -/
  | eorImm (b : Byte)
  /-- `EOR zp`, 45 (R142). -/
  | eorZp (b : Byte)
  /-- `EOR zp,x`, 55 (R142). -/
  | eorZpX (b : Byte)
  /-- `EOR a`, 4D (R142). -/
  | eorAbs (w : Addr)
  /-- `EOR a,x`, 5D (R142). -/
  | eorAbsX (w : Addr)
  /-- `EOR a,y`, 59 (R142). -/
  | eorAbsY (w : Addr)
  /-- `EOR (zp,x)`, 41 (R142). -/
  | eorIndX (b : Byte)
  /-- `EOR (zp),y`, 51 (R142). -/
  | eorIndY (b : Byte)
  /-- `CMP #`, C9 (R151). -/
  | cmpImm (b : Byte)
  /-- `CMP zp`, C5 (R151). -/
  | cmpZp (b : Byte)
  /-- `CMP zp,x`, D5 (R151). -/
  | cmpZpX (b : Byte)
  /-- `CMP a`, CD (R151). -/
  | cmpAbs (w : Addr)
  /-- `CMP a,x`, DD (R151). -/
  | cmpAbsX (w : Addr)
  /-- `CMP a,y`, D9 (R151). -/
  | cmpAbsY (w : Addr)
  /-- `CMP (zp,x)`, C1 (R151). -/
  | cmpIndX (b : Byte)
  /-- `CMP (zp),y`, D1 (R151). -/
  | cmpIndY (b : Byte)
  /-- `CPX #`, E0 (R152). -/
  | cpxImm (b : Byte)
  /-- `CPX zp`, E4 (R152). -/
  | cpxZp (b : Byte)
  /-- `CPX a`, EC (R152). -/
  | cpxAbs (w : Addr)
  /-- `CPY #`, C0 (R153). -/
  | cpyImm (b : Byte)
  /-- `CPY zp`, C4 (R153). -/
  | cpyZp (b : Byte)
  /-- `CPY a`, CC (R153). -/
  | cpyAbs (w : Addr)
  /-- `BIT #`, 89 (R154). -/
  | bitImm (b : Byte)
  /-- `BIT zp`, 24 (R154). -/
  | bitZp (b : Byte)
  /-- `BIT a`, 2C (R154). -/
  | bitAbs (w : Addr)
  /-- `BCC r`, 90 (R161). -/
  | bcc (disp : Byte)
  /-- `BCS r`, B0 (R162). -/
  | bcs (disp : Byte)
  /-- `BEQ r`, F0 (R163). -/
  | beq (disp : Byte)
  /-- `BMI r`, 30 (R164). -/
  | bmi (disp : Byte)
  /-- `BNE r`, D0 (R165). -/
  | bne (disp : Byte)
  /-- `BPL r`, 10 (R166). -/
  | bpl (disp : Byte)
  /-- `BVC r`, 50 (R167). -/
  | bvc (disp : Byte)
  /-- `BVS r`, 70 (R168). -/
  | bvs (disp : Byte)
  /-- `TAX i`, AA (R170). -/
  | tax
  /-- `TXA i`, 8A (R171). -/
  | txa
  /-- `TAY i`, A8 (R172). -/
  | tay
  /-- `TYA i`, 98 (R173). -/
  | tya
  /-- `TSX i`, BA (R174). -/
  | tsx
  /-- `TXS i`, 9A (R175). -/
  | txs
  /-- `PHA i`, 48 (R176). -/
  | pha
  /-- `PLA i`, 68 (R177). -/
  | pla
  /-- `PHP i`, 08 (R178). -/
  | php
  /-- `PLP i`, 28 (R179). -/
  | plp
  /-- `JMP a`, 4C (R190). -/
  | jmpAbs (w : Addr)
  /-- `JMP (a)`, 6C (R192). -/
  | jmpInd (w : Addr)
  /-- `JMP (a,x)`, 7C (R191). -/
  | jmpIndAbsX (w : Addr)
  /-- `JSR a`, 20 (R193). -/
  | jsr (w : Addr)
  /-- `RTS i`, 60 (R194). -/
  | rts
  /-- `RTI i`, 40 (R195). -/
  | rti
  /-- `SEC i`, 38 (R200). -/
  | sec
  /-- `SED i`, F8 (R201). -/
  | sed
  /-- `SEI i`, 78 (R202). -/
  | sei
  /-- `CLC i`, 18 (R203). -/
  | clc
  /-- `CLD i`, D8 (R204). -/
  | cld
  /-- `CLI i`, 58 (R205). -/
  | cli
  /-- `CLV i`, B8 (R206). -/
  | clv
  /-- `NOP i`, EA (R207). -/
  | nop
  /-- `BRK i`, 00 (R208). -/
  | brk
  deriving DecidableEq, Repr

/-- The mnemonic of an instruction (R80). -/
def Instr.mnemonic : Instr → Mnemonic
  | .ldaImm _ | .ldaZp _ | .ldaZpX _ | .ldaAbs _ | .ldaAbsX _ | .ldaAbsY _ | .ldaIndX _ | .ldaIndY _ => .lda
  | .ldxImm _ | .ldxZp _ | .ldxZpY _ | .ldxAbs _ | .ldxAbsY _ => .ldx
  | .ldyImm _ | .ldyZp _ | .ldyZpX _ | .ldyAbs _ | .ldyAbsX _ => .ldy
  | .staZp _ | .staZpX _ | .staAbs _ | .staAbsX _ | .staAbsY _ | .staIndX _ | .staIndY _ => .sta
  | .stxZp _ | .stxZpY _ | .stxAbs _ => .stx
  | .styZp _ | .styZpX _ | .styAbs _ => .sty
  | .adcImm _ | .adcZp _ | .adcZpX _ | .adcAbs _ | .adcAbsX _ | .adcAbsY _ | .adcIndX _ | .adcIndY _ => .adc
  | .sbcImm _ | .sbcZp _ | .sbcZpX _ | .sbcAbs _ | .sbcAbsX _ | .sbcAbsY _ | .sbcIndX _ | .sbcIndY _ => .sbc
  | .incZp _ | .incZpX _ | .incAbs _ | .incAbsX _ => .inc
  | .inx => .inx
  | .iny => .iny
  | .decZp _ | .decZpX _ | .decAbs _ | .decAbsX _ => .dec
  | .dex => .dex
  | .dey => .dey
  | .aslA | .aslZp _ | .aslZpX _ | .aslAbs _ | .aslAbsX _ => .asl
  | .lsrA | .lsrZp _ | .lsrZpX _ | .lsrAbs _ | .lsrAbsX _ => .lsr
  | .rolA | .rolZp _ | .rolZpX _ | .rolAbs _ | .rolAbsX _ => .rol
  | .rorA | .rorZp _ | .rorZpX _ | .rorAbs _ | .rorAbsX _ => .ror
  | .andImm _ | .andZp _ | .andZpX _ | .andAbs _ | .andAbsX _ | .andAbsY _ | .andIndX _ | .andIndY _ => .and
  | .oraImm _ | .oraZp _ | .oraZpX _ | .oraAbs _ | .oraAbsX _ | .oraAbsY _ | .oraIndX _ | .oraIndY _ => .ora
  | .eorImm _ | .eorZp _ | .eorZpX _ | .eorAbs _ | .eorAbsX _ | .eorAbsY _ | .eorIndX _ | .eorIndY _ => .eor
  | .cmpImm _ | .cmpZp _ | .cmpZpX _ | .cmpAbs _ | .cmpAbsX _ | .cmpAbsY _ | .cmpIndX _ | .cmpIndY _ => .cmp
  | .cpxImm _ | .cpxZp _ | .cpxAbs _ => .cpx
  | .cpyImm _ | .cpyZp _ | .cpyAbs _ => .cpy
  | .bitImm _ | .bitZp _ | .bitAbs _ => .bit
  | .bcc _ => .bcc
  | .bcs _ => .bcs
  | .beq _ => .beq
  | .bmi _ => .bmi
  | .bne _ => .bne
  | .bpl _ => .bpl
  | .bvc _ => .bvc
  | .bvs _ => .bvs
  | .tax => .tax
  | .txa => .txa
  | .tay => .tay
  | .tya => .tya
  | .tsx => .tsx
  | .txs => .txs
  | .pha => .pha
  | .pla => .pla
  | .php => .php
  | .plp => .plp
  | .jmpAbs _ | .jmpInd _ | .jmpIndAbsX _ => .jmp
  | .jsr _ => .jsr
  | .rts => .rts
  | .rti => .rti
  | .sec => .sec
  | .sed => .sed
  | .sei => .sei
  | .clc => .clc
  | .cld => .cld
  | .cli => .cli
  | .clv => .clv
  | .nop => .nop
  | .brk => .brk

/-- The addressing mode of an instruction (R80). -/
def Instr.mode : Instr → Mode
  | .inx | .iny | .dex | .dey | .tax | .txa | .tay | .tya
  | .tsx | .txs | .pha | .pla | .php | .plp | .rts | .rti
  | .sec | .sed | .sei | .clc | .cld | .cli | .clv | .nop
  | .brk => .implied
  | .aslA | .lsrA | .rolA | .rorA => .accumulator
  | .ldaImm _ | .ldxImm _ | .ldyImm _ | .adcImm _ | .sbcImm _ | .andImm _ | .oraImm _ | .eorImm _
  | .cmpImm _ | .cpxImm _ | .cpyImm _ | .bitImm _ => .immediate
  | .ldaZp _ | .ldxZp _ | .ldyZp _ | .staZp _ | .stxZp _ | .styZp _ | .adcZp _ | .sbcZp _
  | .incZp _ | .decZp _ | .aslZp _ | .lsrZp _ | .rolZp _ | .rorZp _ | .andZp _ | .oraZp _
  | .eorZp _ | .cmpZp _ | .cpxZp _ | .cpyZp _ | .bitZp _ => .zeroPage
  | .ldaZpX _ | .ldyZpX _ | .staZpX _ | .styZpX _ | .adcZpX _ | .sbcZpX _ | .incZpX _ | .decZpX _
  | .aslZpX _ | .lsrZpX _ | .rolZpX _ | .rorZpX _ | .andZpX _ | .oraZpX _ | .eorZpX _ | .cmpZpX _ => .zeroPageX
  | .ldxZpY _ | .stxZpY _ => .zeroPageY
  | .ldaAbs _ | .ldxAbs _ | .ldyAbs _ | .staAbs _ | .stxAbs _ | .styAbs _ | .adcAbs _ | .sbcAbs _
  | .incAbs _ | .decAbs _ | .aslAbs _ | .lsrAbs _ | .rolAbs _ | .rorAbs _ | .andAbs _ | .oraAbs _
  | .eorAbs _ | .cmpAbs _ | .cpxAbs _ | .cpyAbs _ | .bitAbs _ | .jmpAbs _ | .jsr _ => .absolute
  | .ldaAbsX _ | .ldyAbsX _ | .staAbsX _ | .adcAbsX _ | .sbcAbsX _ | .incAbsX _ | .decAbsX _ | .aslAbsX _
  | .lsrAbsX _ | .rolAbsX _ | .rorAbsX _ | .andAbsX _ | .oraAbsX _ | .eorAbsX _ | .cmpAbsX _ => .absoluteX
  | .ldaAbsY _ | .ldxAbsY _ | .staAbsY _ | .adcAbsY _ | .sbcAbsY _ | .andAbsY _ | .oraAbsY _ | .eorAbsY _
  | .cmpAbsY _ => .absoluteY
  | .ldaIndX _ | .staIndX _ | .adcIndX _ | .sbcIndX _ | .andIndX _ | .oraIndX _ | .eorIndX _ | .cmpIndX _ => .indexedIndirect
  | .ldaIndY _ | .staIndY _ | .adcIndY _ | .sbcIndY _ | .andIndY _ | .oraIndY _ | .eorIndY _ | .cmpIndY _ => .indirectIndexed
  | .jmpInd _ => .absoluteIndirect
  | .jmpIndAbsX _ => .absoluteIndexedIndirect
  | .bcc _ | .bcs _ | .beq _ | .bmi _ | .bne _ | .bpl _ | .bvc _ | .bvs _ => .relative

end Sys2Proof
end

