-- ==== Sys2Proof/WellFormed.lean ====
section
/-! DEFINITION. Well-formedness. An instruction needs no check: its operand is a byte or a 16-bit address by type, and
"any byte value is a legal `b1` or `b2`" (30_encoding.md R81). What can be ill-formed is a memory map (20_memory.md
R49, 70_reset_and_hazards.md R262). -/

namespace Sys2Proof

/-- A region's first address does not lie above its last. -/
def Region.ordered (r : Region) : Bool := r.first.toNat ≤ r.last.toNat

/-- No two regions hold one address: each begins after the one before it ends, so `MEM_MAP` is a function with no
choice in it (R49: it "assigns every address one of four kinds"). -/
def Params.mapDisjoint (p : Params) : Bool :=
  p.memMap.all Region.ordered && decide (p.memMap.Pairwise fun r q => r.last.toNat < q.first.toNat)

/-- The two bytes of the reset vector can be read (R49, R262). -/
def Params.resetVectorReadable (p : Params) : Bool :=
  [0xFFFC#16, 0xFFFD#16].all fun a => Machine.kindAt p.memMap a == .ram || Machine.kindAt p.memMap a == .rom

/-- The stack page is `ram` (R49, R262). -/
def Params.stackPageIsRam (p : Params) : Bool :=
  (List.range 256).all fun k => Machine.kindAt p.memMap (BitVec.ofNat 16 (0x100 + k)) == .ram

/-- A platform on which the processor can start and use its stack (R49, R262). -/
def Params.wf (p : Params) : Bool := p.mapDisjoint && p.resetVectorReadable && p.stackPageIsRam

end Sys2Proof
end

