-- ==== Sys2Proof/Machine/Fetch.lean ====
section
/-! DEFINITION. Fetching an instruction (30_encoding.md R60, R64; 20_memory.md R46, R54). -/

namespace Sys2Proof.Machine

/-- Read the opcode byte; a byte with no row is a fault before any operand byte is read; then `b1` and `b2`, as many as
the row asks for (R60, R81). -/
def fetch (s : State) : Result Instr :=
  andThen (memRead s.pc s) fun op =>
  match opcodeRow op with
  | none => .fault (.undefinedOpcode op)
  | some (.one i) => .next i
  | some (.two mk) => andThen (memRead (s.pc + 1) s) fun b1 => .next (mk b1)
  | some (.three mk) =>
    andThen (memRead (s.pc + 1) s) fun b1 =>
    andThen (memRead (s.pc + 2) s) fun b2 => .next (mk (joinBytes b2 b1))

/-- The bytes stored at `a` upward, wrapping at 65536 (R50). -/
def storeBytes : List Byte → Addr → List Host.Cell → List Host.Cell
  | [], _, m => m
  | b :: bs, a, m => storeBytes bs (a + 1) (setCell m a.toNat b)

end Sys2Proof.Machine
end

