-- ==== Sys2Proof/Machine/Interrupts.lean ====
section
/-! DEFINITION. Hardware interrupts and the platform's moves (60_exceptions.md R223 to R227). -/

namespace Sys2Proof.Machine

/-- Taking an NMI at a boundary: the latch is cleared, then the entry (R224, R226). -/
def takeNmi (s : State) : Result State := takeInterrupt nmiVector false s.pc { s with nmiPending := false }

/-- Taking an IRQ at a boundary: the line is not touched (R223, R226). -/
def takeIrq (s : State) : Result State := takeInterrupt irqVector false s.pc s

/-- An NMI is to be taken: the latch is set, whatever I is; never without `HW_INTERRUPTS` (R224). -/
def nmiDue (s : State) : Bool := s.nmiPending && s.params.hwInterrupts

/-- An IRQ is to be taken: the line is up and `i_poll` is 0; never without `HW_INTERRUPTS` (R223). -/
def irqDue (s : State) : Bool := s.irqLine && !s.iPoll && s.params.hwInterrupts

/-- CLI, SEI and PLP: the boundary after them still uses the I from before (R226, R266). -/
def delaysPoll (i : Instr) : Bool := i.mnemonic == .cli || i.mnemonic == .sei || i.mnemonic == .plp

/-- What the boundary does after an instruction: `i_poll <- I`, but for the three that have set it themselves (R226). -/
def afterInstruction (i : Instr) (t : State) : State := if delaysPoll i then t else setPoll t.flagI t

/-- A move of the platform, the second agent (R37, R38, R225). -/
inductive PlatformMove where
  /-- Drive the IRQ line to a level (R223). -/
  | driveIrq (level : Bool)
  /-- An edge on the NMI input; lost if the latch is set already (R224). -/
  | nmiEdge
  /-- Drive reset to a level (R225). -/
  | driveReset (level : Bool)
  deriving DecidableEq, Repr

/-- What a move does. Without `HW_INTERRUPTS` neither IRQ nor NMI exists (R37). -/
def platformMove (s : State) : PlatformMove → State
  | .driveIrq level => if s.params.hwInterrupts then { s with irqLine := level } else s
  | .nmiEdge => if s.params.hwInterrupts then { s with nmiPending := true } else s
  | .driveReset level => { s with resetLine := level }

/-- The moves made before one boundary, in order (R226). -/
def applyMoves (moves : List PlatformMove) (s : State) : State := moves.foldl platformMove s

end Sys2Proof.Machine
end

