-- ==== Sys2Proof/Machine/Step.lean ====
section
/-! DEFINITION. One step: the boundary decision of 60_exceptions.md R226, and one instruction (30_encoding.md R60). -/

namespace Sys2Proof.Machine

/-- Fetch one instruction and execute it; then the boundary's `i_poll <- I` (R60, R226). -/
def runInstruction (s : State) : Result State :=
  andThen (fetch s) fun i => andThen (exec i s) fun t => .next (afterInstruction i t)

/-- One step: reset first, then NMI, then IRQ, then one instruction (R226, R227). A run that is marked faulted does not
continue (R81). -/
def step (s : State) : Host.Outcome State Fault Refusal :=
  if s.faultMark then .fault .runFaulted
  else if s.resetLine then takeReset s
  else if nmiDue s then takeNmi s
  else if irqDue s then takeIrq s
  else runInstruction s

/-- `s` with the instruction of a table word stored at PC, its bits from `nbits` on zero, and with nothing that would
keep the next step from fetching it: no reset, no interrupt waiting, no fault mark. -/
def State.withFetchWord (s : State) (nbits w : Nat) : State :=
  { s with mem := storeBytes (tableBytes nbits w) s.pc s.mem,
           resetLine := false, nmiPending := false, irqLine := false, faultMark := false }

end Sys2Proof.Machine
end

