-- ==== Sys2Proof/Safety.lean ====
section
/-! DEFINITION. Runs: where one ends (70_reset_and_hazards.md R268), and what counts as a safe one. -/

namespace Sys2Proof.Machine

/-- How a run stands (R268). R268 gives a run that a fault or a refusal ends no end state. DESIGN CHOICE, safe
(notes/assumptions/9.md): `faulted` and `refused` report, for inspection alone, the state the stopped step ran on. -/
inductive RunEnd where
  /-- PC is `END_PC` at a boundary; the instruction there is not fetched. -/
  | success (s : State)
  /-- A step faulted: `s` is the state it ran on, marked; no step continues it (R15, R81). -/
  | faulted (s : State) (r : Fault)
  /-- A step was refused (R49): `s` is the state it ran on. -/
  | refused (s : State) (r : Refusal)
  /-- The steps allowed are used up. -/
  | running (s : State)
  deriving DecidableEq, Repr

/-- At a boundary, PC equals `END_PC` (R268). -/
def atEnd (s : State) : Bool := s.params.endPc == some s.pc

/-- A run with the platform's moves: each entry of the list holds the moves made just before one boundary (R226: "the
platform may change `irq_line` and may set `nmi_pending`; nothing bounds when"). A step that faults changes no state (R15, R81), so
the state reported is the one it ran on: the moves of that boundary stand in it, and a fault adds the mark. DESIGN CHOICE,
safe (notes/assumptions/9.md): R81 does not speak of the moves, and R268 gives such a run no end state. DEDUCED
(notes/assumptions/16.md): `END_PC` is looked at before the moves of that boundary. -/
def runWith : List (List PlatformMove) → State → RunEnd
  | [], s => if s.faultMark then .faulted s .runFaulted else if atEnd s then .success s else .running s
  | moves :: rest, s =>
    if s.faultMark then .faulted s .runFaulted
    else if atEnd s then .success s
    else
      match step (applyMoves moves s) with
      | .next t => runWith rest t
      | .fault r => .faulted { applyMoves moves s with faultMark := true } r
      | .refused r => .refused (applyMoves moves s) r

/-- A run in which the platform never moves. -/
def runQuiet (n : Nat) (s : State) : RunEnd := runWith (List.replicate n []) s

/-- A run that no fault and no refusal ends. -/
def RunEnd.safe : RunEnd → Bool
  | .success _ | .running _ => true
  | .faulted _ _ | .refused _ _ => false

/-- A step goes on. -/
def StepsOn (s : State) : Prop := ∃ t, step s = .next t

end Sys2Proof.Machine
end

