-- ==== Sys2Proof/Certificates/Slice0/Obligations.lean ====
section
/-! DEFINITION. What is claimed of the machine, for the provers; each docstring names the rules it follows. A flag is
written `v.getLsbD k` for the rules' `v[k]`. A claim about an instruction's result is an equation `exec i s = .next …`
whose record update lists all that changes, so it is also the instruction's frame and says that it completes. -/

open Sys2Proof Sys2Proof.Machine

namespace Sys2Proof.Claims

/-- `next = (pc0 + len) mod 65536` (R60). -/
def nextPC (i : Instr) (s : State) : Addr := s.pc + BitVec.ofNat 16 i.length

/-- Memory after: `a` reads as `v` if it is `ram`; every other address reads as before. -/
def WritesByte (s t : State) (a : Addr) (v : Byte) : Prop :=
  ∀ x : Addr, byteAt t x = if x = a ∧ s.isRam a = true then v else byteAt s x

/-- Neither an NMI nor an IRQ is to be taken at this boundary (R223, R224). -/
def NothingDue (s : State) : Prop :=
  s.params.hwInterrupts = false ∨ (s.nmiPending = false ∧ (s.irqLine = false ∨ s.iPoll = true))

/-- The three stack bytes and the two bytes of the vector are plain memory. -/
def EntryPossible (s : State) (vec : Addr) : Prop :=
  s.isPlain (stackAddr s.regS) = true ∧ s.isPlain (stackAddr (s.regS - 1)) = true ∧
  s.isPlain (stackAddr (s.regS - 2)) = true ∧ s.isPlain vec = true ∧ s.isPlain (vec + 1) = true

/-- `t` is `s` after the entry sequence `Interrupt(vec, b, ret)` (R228). -/
def InterruptTaken (s t : State) (vec : Addr) (b : Bool) (ret : Addr) : Prop :=
  t = { s with
    mem := t.mem, regS := s.regS - 3, flagI := true, flagD := if s.params.intClearsD then false else s.flagD,
    pc := joinBytes (byteAt s (vec + 1)) (byteAt s vec), iPoll := if s.params.hwInterrupts then true else s.iPoll } ∧
  ∀ x, byteAt t x =
    if x = stackAddr (s.regS - 2) ∧ s.isRam x = true then packP b s
    else if x = stackAddr (s.regS - 1) ∧ s.isRam x = true then loByte ret
    else if x = stackAddr s.regS ∧ s.isRam x = true then hiByte ret
    else byteAt s x

/-- `n` executions of one instruction. -/
def execTimes : Nat → Instr → State → Result State
  | 0, _, s => .next s
  | n + 1, i, s => andThen (exec i s) (execTimes n i)

/-- The 103 opcode bytes with no row, as R81 lists them. -/
def undefinedOpcodes : List Nat :=
  [0x02, 0x03, 0x04, 0x07, 0x0B, 0x0C, 0x0F, 0x12, 0x13, 0x14, 0x17, 0x1A, 0x1B, 0x1C, 0x1F, 0x22,
    0x23, 0x27, 0x2B, 0x2F, 0x32, 0x33, 0x34, 0x37, 0x3A, 0x3B, 0x3C, 0x3F, 0x42, 0x43, 0x44, 0x47,
    0x4B, 0x4F, 0x52, 0x53, 0x54, 0x57, 0x5A, 0x5B, 0x5C, 0x5F, 0x62, 0x63, 0x64, 0x67, 0x6B, 0x6F,
    0x72, 0x73, 0x74, 0x77, 0x7A, 0x7B, 0x7F, 0x80, 0x82, 0x83, 0x87, 0x8B, 0x8F, 0x92, 0x93, 0x97,
    0x9B, 0x9C, 0x9E, 0x9F, 0xA3, 0xA7, 0xAB, 0xAF, 0xB2, 0xB3, 0xB7, 0xBB, 0xBF, 0xC2, 0xC3, 0xC7,
    0xCB, 0xCF, 0xD2, 0xD3, 0xD4, 0xD7, 0xDA, 0xDB, 0xDC, 0xDF, 0xE2, 0xE3, 0xE7, 0xEB, 0xEF, 0xF2,
    0xF3, 0xF4, 0xF7, 0xFA, 0xFB, 0xFC, 0xFF]

/-- The instructions that write Z and N by their "Flags:" lines, but TXS, which a parameter governs (R26, R31). -/
def writersOfZ : List Mnemonic :=
  [.lda, .ldx, .ldy, .adc, .sbc, .inc, .inx, .iny, .dec, .dex, .dey, .asl, .lsr, .rol, .ror, .and, .ora, .eor,
   .cmp, .cpx, .cpy, .bit, .tax, .txa, .tay, .tya, .tsx, .pla, .plp, .rti]

/-- The forms of LDA (R100). -/
def ldaForms (b : Byte) (w : Addr) : List (Byte × Instr × ReadForm) :=
  [(0xA9, .ldaImm b, .imm b), (0xA5, .ldaZp b, .mem (.zp b)),
   (0xB5, .ldaZpX b, .mem (.zpX b)), (0xAD, .ldaAbs w, .mem (.abs w)),
   (0xBD, .ldaAbsX w, .mem (.absX w)), (0xB9, .ldaAbsY w, .mem (.absY w)),
   (0xA1, .ldaIndX b, .mem (.indX b)), (0xB1, .ldaIndY b, .mem (.indY b))]

/-- The forms of LDX (R101). -/
def ldxForms (b : Byte) (w : Addr) : List (Byte × Instr × ReadForm) :=
  [(0xA2, .ldxImm b, .imm b), (0xA6, .ldxZp b, .mem (.zp b)),
   (0xB6, .ldxZpY b, .mem (.zpY b)), (0xAE, .ldxAbs w, .mem (.abs w)),
   (0xBE, .ldxAbsY w, .mem (.absY w))]

/-- The forms of LDY (R102). -/
def ldyForms (b : Byte) (w : Addr) : List (Byte × Instr × ReadForm) :=
  [(0xA0, .ldyImm b, .imm b), (0xA4, .ldyZp b, .mem (.zp b)),
   (0xB4, .ldyZpX b, .mem (.zpX b)), (0xAC, .ldyAbs w, .mem (.abs w)),
   (0xBC, .ldyAbsX w, .mem (.absX w))]

/-- The forms of STA (R103). -/
def staForms (b : Byte) (w : Addr) : List (Byte × Instr × MemForm) :=
  [(0x85, .staZp b, .zp b), (0x95, .staZpX b, .zpX b),
   (0x8D, .staAbs w, .abs w), (0x9D, .staAbsX w, .absX w),
   (0x99, .staAbsY w, .absY w), (0x81, .staIndX b, .indX b),
   (0x91, .staIndY b, .indY b)]

/-- The forms of STX (R104). -/
def stxForms (b : Byte) (w : Addr) : List (Byte × Instr × MemForm) :=
  [(0x86, .stxZp b, .zp b), (0x96, .stxZpY b, .zpY b),
   (0x8E, .stxAbs w, .abs w)]

/-- The forms of STY (R105). -/
def styForms (b : Byte) (w : Addr) : List (Byte × Instr × MemForm) :=
  [(0x84, .styZp b, .zp b), (0x94, .styZpX b, .zpX b),
   (0x8C, .styAbs w, .abs w)]

/-- The forms of ADC (R110). -/
def adcForms (b : Byte) (w : Addr) : List (Byte × Instr × ReadForm) :=
  [(0x69, .adcImm b, .imm b), (0x65, .adcZp b, .mem (.zp b)),
   (0x75, .adcZpX b, .mem (.zpX b)), (0x6D, .adcAbs w, .mem (.abs w)),
   (0x7D, .adcAbsX w, .mem (.absX w)), (0x79, .adcAbsY w, .mem (.absY w)),
   (0x61, .adcIndX b, .mem (.indX b)), (0x71, .adcIndY b, .mem (.indY b))]

/-- The forms of SBC (R111). -/
def sbcForms (b : Byte) (w : Addr) : List (Byte × Instr × ReadForm) :=
  [(0xE9, .sbcImm b, .imm b), (0xE5, .sbcZp b, .mem (.zp b)),
   (0xF5, .sbcZpX b, .mem (.zpX b)), (0xED, .sbcAbs w, .mem (.abs w)),
   (0xFD, .sbcAbsX w, .mem (.absX w)), (0xF9, .sbcAbsY w, .mem (.absY w)),
   (0xE1, .sbcIndX b, .mem (.indX b)), (0xF1, .sbcIndY b, .mem (.indY b))]

/-- The forms of INC and DEC, with what becomes of the byte (R120, R123). -/
def incDecForms (b : Byte) (w : Addr) : List (Byte × Instr × MemForm × (Byte → Byte)) :=
  [(0xE6, .incZp b, .zp b, fun m => m + 1), (0xF6, .incZpX b, .zpX b, fun m => m + 1),
   (0xEE, .incAbs w, .abs w, fun m => m + 1), (0xFE, .incAbsX w, .absX w, fun m => m + 1),
   (0xC6, .decZp b, .zp b, fun m => m - 1), (0xD6, .decZpX b, .zpX b, fun m => m - 1),
   (0xCE, .decAbs w, .abs w, fun m => m - 1), (0xDE, .decAbsX w, .absX w, fun m => m - 1)]

/-- The shifts in mode A, with the value of the result as a number and C (R130, R131, R132, R133). -/
def accumulatorShifts (s : State) : List (Byte × Instr × Nat × Bool) :=
  [(0x0A, .aslA, (2 * s.regA.toNat) % 256, s.regA.getLsbD 7),
   (0x4A, .lsrA, s.regA.toNat / 2, s.regA.getLsbD 0),
   (0x2A, .rolA, (2 * s.regA.toNat) % 256 + (if s.flagC then 1 else 0), s.regA.getLsbD 7),
   (0x6A, .rorA, s.regA.toNat / 2 + (if s.flagC then 128 else 0), s.regA.getLsbD 0)]

/-- The shifts of a byte m of memory, with the value of the result as a number and C (R130, R131, R132, R133). -/
def memoryShifts (s : State) (b : Byte) (w : Addr) (m : Byte) : List (Byte × Instr × MemForm × Nat × Bool) :=
  [(0x06, .aslZp b, .zp b, (2 * m.toNat) % 256, m.getLsbD 7),
   (0x16, .aslZpX b, .zpX b, (2 * m.toNat) % 256, m.getLsbD 7),
   (0x0E, .aslAbs w, .abs w, (2 * m.toNat) % 256, m.getLsbD 7),
   (0x1E, .aslAbsX w, .absX w, (2 * m.toNat) % 256, m.getLsbD 7),
   (0x46, .lsrZp b, .zp b, m.toNat / 2, m.getLsbD 0),
   (0x56, .lsrZpX b, .zpX b, m.toNat / 2, m.getLsbD 0),
   (0x4E, .lsrAbs w, .abs w, m.toNat / 2, m.getLsbD 0),
   (0x5E, .lsrAbsX w, .absX w, m.toNat / 2, m.getLsbD 0),
   (0x26, .rolZp b, .zp b, (2 * m.toNat) % 256 + (if s.flagC then 1 else 0), m.getLsbD 7),
   (0x36, .rolZpX b, .zpX b, (2 * m.toNat) % 256 + (if s.flagC then 1 else 0), m.getLsbD 7),
   (0x2E, .rolAbs w, .abs w, (2 * m.toNat) % 256 + (if s.flagC then 1 else 0), m.getLsbD 7),
   (0x3E, .rolAbsX w, .absX w, (2 * m.toNat) % 256 + (if s.flagC then 1 else 0), m.getLsbD 7),
   (0x66, .rorZp b, .zp b, m.toNat / 2 + (if s.flagC then 128 else 0), m.getLsbD 0),
   (0x76, .rorZpX b, .zpX b, m.toNat / 2 + (if s.flagC then 128 else 0), m.getLsbD 0),
   (0x6E, .rorAbs w, .abs w, m.toNat / 2 + (if s.flagC then 128 else 0), m.getLsbD 0),
   (0x7E, .rorAbsX w, .absX w, m.toNat / 2 + (if s.flagC then 128 else 0), m.getLsbD 0)]

/-- The forms of AND, ORA and EOR, with the operation (R140, R141, R142). -/
def logicForms (b : Byte) (w : Addr) : List (Byte × Instr × ReadForm × (Byte → Byte → Byte)) :=
  [(0x29, .andImm b, .imm b, fun x y => x &&& y), (0x25, .andZp b, .mem (.zp b), fun x y => x &&& y),
   (0x35, .andZpX b, .mem (.zpX b), fun x y => x &&& y), (0x2D, .andAbs w, .mem (.abs w), fun x y => x &&& y),
   (0x3D, .andAbsX w, .mem (.absX w), fun x y => x &&& y), (0x39, .andAbsY w, .mem (.absY w), fun x y => x &&& y),
   (0x21, .andIndX b, .mem (.indX b), fun x y => x &&& y), (0x31, .andIndY b, .mem (.indY b), fun x y => x &&& y),
   (0x09, .oraImm b, .imm b, fun x y => x ||| y), (0x05, .oraZp b, .mem (.zp b), fun x y => x ||| y),
   (0x15, .oraZpX b, .mem (.zpX b), fun x y => x ||| y), (0x0D, .oraAbs w, .mem (.abs w), fun x y => x ||| y),
   (0x1D, .oraAbsX w, .mem (.absX w), fun x y => x ||| y), (0x19, .oraAbsY w, .mem (.absY w), fun x y => x ||| y),
   (0x01, .oraIndX b, .mem (.indX b), fun x y => x ||| y), (0x11, .oraIndY b, .mem (.indY b), fun x y => x ||| y),
   (0x49, .eorImm b, .imm b, fun x y => x ^^^ y), (0x45, .eorZp b, .mem (.zp b), fun x y => x ^^^ y),
   (0x55, .eorZpX b, .mem (.zpX b), fun x y => x ^^^ y), (0x4D, .eorAbs w, .mem (.abs w), fun x y => x ^^^ y),
   (0x5D, .eorAbsX w, .mem (.absX w), fun x y => x ^^^ y), (0x59, .eorAbsY w, .mem (.absY w), fun x y => x ^^^ y),
   (0x41, .eorIndX b, .mem (.indX b), fun x y => x ^^^ y), (0x51, .eorIndY b, .mem (.indY b), fun x y => x ^^^ y)]

/-- The forms of CMP, CPX and CPY, with the register compared (R151, R152, R153). -/
def compareForms (s : State) (b : Byte) (w : Addr) : List (Byte × Instr × ReadForm × Byte) :=
  [(0xC9, .cmpImm b, .imm b, s.regA), (0xC5, .cmpZp b, .mem (.zp b), s.regA),
   (0xD5, .cmpZpX b, .mem (.zpX b), s.regA), (0xCD, .cmpAbs w, .mem (.abs w), s.regA),
   (0xDD, .cmpAbsX w, .mem (.absX w), s.regA), (0xD9, .cmpAbsY w, .mem (.absY w), s.regA),
   (0xC1, .cmpIndX b, .mem (.indX b), s.regA), (0xD1, .cmpIndY b, .mem (.indY b), s.regA),
   (0xE0, .cpxImm b, .imm b, s.regX), (0xE4, .cpxZp b, .mem (.zp b), s.regX),
   (0xEC, .cpxAbs w, .mem (.abs w), s.regX), (0xC0, .cpyImm b, .imm b, s.regY),
   (0xC4, .cpyZp b, .mem (.zp b), s.regY), (0xCC, .cpyAbs w, .mem (.abs w), s.regY)]

/-- The forms of BIT, with whether N and V are written (R154). -/
def bitForms (s : State) (b : Byte) (w : Addr) : List (Byte × Instr × ReadForm × Bool) :=
  [(0x89, .bitImm b, .imm b, s.params.bitImmWritesNV), (0x24, .bitZp b, .mem (.zp b), true),
   (0x2C, .bitAbs w, .mem (.abs w), true)]

/-- The eight branches, with the condition (R161, R162, R163, R164, R165, R166, R167, R168). -/
def branchForms (s : State) (disp : Byte) : List (Byte × Instr × Bool) :=
  [(0x90, .bcc disp, !s.flagC), (0xB0, .bcs disp, s.flagC), (0xF0, .beq disp, s.flagZ),
   (0x30, .bmi disp, s.flagN), (0xD0, .bne disp, !s.flagZ), (0x10, .bpl disp, !s.flagN),
   (0x50, .bvc disp, !s.flagV), (0x70, .bvs disp, s.flagV)]

/-- PHA and PHP, with the byte pushed (R176, R178). -/
def pushForms (s : State) : List (Byte × Instr × Byte) :=
  [(0x48, .pha, s.regA), (0x08, .php, packP true s)]

end Sys2Proof.Claims

/-! ### Encoding and decoding -/

/-- Decoding the bytes of any instruction gives it back, with every operand (30_encoding.md section 1 (R60, R61), R79). -/
def Obligations.DecodeInvertsEncode : Prop :=
  ∀ (i : Instr) (rest : List Byte), decode (encode i ++ rest) = .ok (i, rest)

/-- Whatever decodes to an instruction is that instruction's encoding (30_encoding.md section 1 (R60, R61), R79). -/
def Obligations.EncodeInvertsDecode : Prop :=
  ∀ (bs rest : List Byte) (i : Instr), decode bs = .ok (i, rest) → bs = encode i ++ rest

/-- Each opcode byte has one row in the map or is one of the 103 listed as undefined (R81, R85). -/
def Obligations.OpcodeMapIsTotal : Prop :=
  Claims.undefinedOpcodes.length = 103 ∧ opcodeRows.length = 153 ∧ (opcodeRows.map Prod.fst).Nodup ∧
    ∀ op : Byte, (opcodeRow op).isNone = true ↔ op.toNat ∈ Claims.undefinedOpcodes

/-- Words written out from the spec's encodings decode to the instructions they stand for (R79, R83). -/
def Obligations.WrittenWordsDecode : Prop :=
  decode [0xE8] = .ok (.inx, []) ∧ decode [0x0A] = .ok (.aslA, []) ∧ decode [0xA9, 0x80] = .ok (.ldaImm 0x80, []) ∧
  decode [0xA5, 0x10] = .ok (.ldaZp 0x10, []) ∧ decode [0xB5, 0x10] = .ok (.ldaZpX 0x10, []) ∧
  decode [0xB6, 0x10] = .ok (.ldxZpY 0x10, []) ∧ decode [0xAD, 0x34, 0x12] = .ok (.ldaAbs 0x1234, []) ∧
  decode [0xBD, 0x34, 0x12] = .ok (.ldaAbsX 0x1234, []) ∧ decode [0xB9, 0x34, 0x12] = .ok (.ldaAbsY 0x1234, []) ∧
  decode [0xA1, 0x10] = .ok (.ldaIndX 0x10, []) ∧ decode [0xB1, 0x10] = .ok (.ldaIndY 0x10, []) ∧
  decode [0xD0, 0xF7] = .ok (.bne 0xF7, []) ∧ decode [0x6C, 0x34, 0x12] = .ok (.jmpInd 0x1234, []) ∧
  decode [0x7C, 0x34, 0x12] = .ok (.jmpIndAbsX 0x1234, [])

/-! ### The step -/

/-- A step runs the instruction that the bytes at PC decode to, then keeps i_poll (R60, R226). That i_poll stands unchanged
without `HW_INTERRUPTS`, where R226 says that it does not exist, is the model's (notes/assumptions/13.md, DEDUCED). -/
def Obligations.StepRunsDecodedInstruction : Prop :=
  ∀ (s : State) (i : Instr) (rest : List Byte),
    s.faultMark = false → s.resetLine = false → Claims.NothingDue s →
    (∀ k : Nat, k < i.length → s.isPlain (s.pc + BitVec.ofNat 16 k) = true) →
    decode [byteAt s s.pc, byteAt s (s.pc + 1), byteAt s (s.pc + 2)] = .ok (i, rest) →
    step s = andThen (exec i s) fun t => .next
      (if i ∈ [Instr.cli, .sei, .plp] then t
       else { t with iPoll := if t.params.hwInterrupts then t.flagI else t.iPoll })

/-- Fetching an opcode byte with no row is a fault that names the byte (R81, R15), and away from END_PC (R268) it ends the
run. That the run, not the step, sets the mark, and that the run reports the state the step ran on, although R268 gives a
faulted run no end state, is the model's choice (notes/assumptions/9.md, DESIGN CHOICE). -/
def Obligations.UndefinedOpcodeFaults : Prop :=
  ∀ (s : State),
    s.faultMark = false → s.resetLine = false → Claims.NothingDue s → s.isPlain s.pc = true →
    (byteAt s s.pc).toNat ∈ Claims.undefinedOpcodes →
    step s = .fault (.undefinedOpcode (byteAt s s.pc)) ∧
    (s.params.endPc ≠ some s.pc →
      ∀ rest, runWith ([] :: rest) s = .faulted { s with faultMark := true } (.undefinedOpcode (byteAt s s.pc)))

/-- A state whose fault mark is set takes no step, with reset asserted too, and its run stays faulted: the model's choice
(notes/assumptions/9.md, DESIGN CHOICE; R81 says that such a run "does not continue"). A run that is not marked and stands
at END_PC has ended with success whatever moves follow: the model's reading (notes/assumptions/16.md, DEDUCED from R268). -/
def Obligations.MarkedRunDoesNotContinue : Prop :=
  (∀ s : State, s.faultMark = true →
    step s = .fault .runFaulted ∧ ∀ inputs : List (List PlatformMove), runWith inputs s = .faulted s .runFaulted) ∧
  (∀ (s : State) (inputs : List (List PlatformMove)), s.faultMark = false → s.params.endPc = some s.pc →
    runWith inputs s = .success s)

/-- The very next step after withFetchWord runs the instruction of the word (the model's own interface) (30_encoding.md section 1 (R60), notes/assumptions/11.md). -/
def Obligations.FetchWordIsRun : Prop :=
  ∀ (s : State) (nbits w : Nat) (i : Instr), decodeTableWord nbits w = some i →
    s.isPlain s.pc = true → s.isPlain (s.pc + 1) = true → s.isPlain (s.pc + 2) = true →
    step (s.withFetchWord nbits w) =
      andThen (exec i (s.withFetchWord nbits w)) fun t => .next (afterInstruction i t)

/-! ### Addressing modes and memory -/

/-- The operand of #, and the effective addresses of zp, zp,x and zp,y, which stay in zero page (R67, R68, R69, R70). -/
def Obligations.ImmediateAndZeroPageModes : Prop :=
  ∀ (s : State) (b : Byte) (a : Addr),
    (ReadForm.imm b).length = 2 ∧ (ReadForm.imm b).read s = .next b ∧
    (∀ f ∈ [MemForm.zp b, .zpX b, .zpY b], f.length = 2 ∧ (f.ea s = .next a → (ReadForm.mem f).read s = memRead a s)) ∧
    (a.toNat = b.toNat → (MemForm.zp b).ea s = .next a) ∧
    (a.toNat = (b.toNat + s.regX.toNat) % 256 → (MemForm.zpX b).ea s = .next a) ∧
    (a.toNat = (b.toNat + s.regY.toNat) % 256 → (MemForm.zpY b).ea s = .next a)

/-- The effective addresses of a, a,x and a,y, low byte first, with the carry into the high byte; for JMP a and JSR a the
address itself is the target and no operand is read (R71, R72, R73). -/
def Obligations.AbsoluteModes : Prop :=
  ∀ (s : State) (w a : Addr),
    (∀ f ∈ [MemForm.abs w, .absX w, .absY w], f.length = 3 ∧ (f.ea s = .next a → (ReadForm.mem f).read s = memRead a s)) ∧
    (MemForm.abs w).ea s = .next w ∧
    (a.toNat = (w.toNat + s.regX.toNat) % 65536 → (MemForm.absX w).ea s = .next a) ∧
    (a.toNat = (w.toNat + s.regY.toNat) % 65536 → (MemForm.absY w).ea s = .next a) ∧
    (∀ b1 b2 : Byte, w.toNat = 256 * b2.toNat + b1.toNat →
      decode [0xAD, b1, b2] = .ok (.ldaAbs w, []) ∧ decode [0xBD, b1, b2] = .ok (.ldaAbsX w, []) ∧
      decode [0xB9, b1, b2] = .ok (.ldaAbsY w, []) ∧ decode [0x4C, b1, b2] = .ok (.jmpAbs w, []) ∧
      decode [0x20, b1, b2] = .ok (.jsr w, [])) ∧
    exec (.jmpAbs w) s = .next { s with pc := w } ∧ (∀ t, exec (.jsr w) s = .next t → t.pc = w)

/-- The effective addresses of (zp,x) and (zp),y: both pointer bytes come from zero page (R74, R75). -/
def Obligations.IndirectModes : Prop :=
  ∀ (s : State) (b : Byte) (p q a : Addr), s.isPlain p = true → s.isPlain q = true →
    (∀ f ∈ [MemForm.indX b, .indY b], f.length = 2 ∧ (f.ea s = .next a → (ReadForm.mem f).read s = memRead a s)) ∧
    (p.toNat = (b.toNat + s.regX.toNat) % 256 → q.toNat = (b.toNat + s.regX.toNat + 1) % 256 →
      a.toNat = 256 * (byteAt s q).toNat + (byteAt s p).toNat → (MemForm.indX b).ea s = .next a) ∧
    (p.toNat = b.toNat → q.toNat = (b.toNat + 1) % 256 →
      a.toNat = (256 * (byteAt s q).toNat + (byteAt s p).toNat + s.regY.toNat) % 65536 → (MemForm.indY b).ea s = .next a)

/-- A read of plain memory gives the byte written last; a write to rom changes nothing (R47). -/
def Obligations.PlainMemoryHoldsWhatIsWritten : Prop :=
  ∀ (s : State) (a : Addr) (v : Byte),
    (s.isPlain a = true → memRead a s = .next (byteAt s a)) ∧
    (s.kind a = .ram → ∃ t, memWrite a v s = .next t ∧ t = { s with mem := t.mem } ∧
      (∀ x, byteAt t x = if x = a then v else byteAt s x) ∧ memRead a t = .next v) ∧
    (s.kind a = .rom → memWrite a v s = .next s)

/-- A read or write of a device or absent address is refused by name (R49). -/
def Obligations.DeviceAndAbsentAccessIsRefused : Prop :=
  ∀ (s : State) (a : Addr) (v : Byte),
    (s.kind a = .device → memRead a s = .refused (.deviceAccess a) ∧ memWrite a v s = .refused (.deviceAccess a) ∧
      exec (.ldaAbs a) s = .refused (.deviceAccess a) ∧ exec (.staAbs a) s = .refused (.deviceAccess a)) ∧
    (s.kind a = .absent → memRead a s = .refused (.absentAccess a) ∧ memWrite a v s = .refused (.absentAccess a) ∧
      exec (.ldaAbs a) s = .refused (.absentAccess a) ∧ exec (.staAbs a) s = .refused (.absentAccess a))

/-! ### Load and store -/

/-- LDA in every form puts the operand in A and sets N and Z from it, and changes nothing else (R100). -/
def Obligations.LdaLoadsOperandIntoA : Prop :=
  ∀ (s : State) (b : Byte) (w : Addr) (op : Byte) (i : Instr) (f : ReadForm) (m : Byte),
    (op, i, f) ∈ Claims.ldaForms b w →
    f.read s = .next m →
    i.opcode = op ∧
      exec i s = .next { s with regA := m, flagN := m.getLsbD 7, flagZ := m == 0, pc := Claims.nextPC i s }

/-- LDX in every form puts the operand in X and sets N and Z from it, and changes nothing else (R101). -/
def Obligations.LdxLoadsOperandIntoX : Prop :=
  ∀ (s : State) (b : Byte) (w : Addr) (op : Byte) (i : Instr) (f : ReadForm) (m : Byte),
    (op, i, f) ∈ Claims.ldxForms b w →
    f.read s = .next m →
    i.opcode = op ∧
      exec i s = .next { s with regX := m, flagN := m.getLsbD 7, flagZ := m == 0, pc := Claims.nextPC i s }

/-- LDY in every form puts the operand in Y and sets N and Z from it, and changes nothing else (R102). -/
def Obligations.LdyLoadsOperandIntoY : Prop :=
  ∀ (s : State) (b : Byte) (w : Addr) (op : Byte) (i : Instr) (f : ReadForm) (m : Byte),
    (op, i, f) ∈ Claims.ldyForms b w →
    f.read s = .next m →
    i.opcode = op ∧
      exec i s = .next { s with regY := m, flagN := m.getLsbD 7, flagZ := m == 0, pc := Claims.nextPC i s }

/-- STA in every form stores A at the effective address and changes nothing else (R103). -/
def Obligations.StaStoresA : Prop :=
  ∀ (s : State) (b : Byte) (w : Addr) (op : Byte) (i : Instr) (f : MemForm) (a : Addr),
    (op, i, f) ∈ Claims.staForms b w →
    f.ea s = .next a → s.isPlain a = true →
    i.opcode = op ∧ ∃ t, exec i s = .next t ∧ t = { s with mem := t.mem, pc := Claims.nextPC i s } ∧
      Claims.WritesByte s t a s.regA

/-- STX in every form stores X at the effective address and changes nothing else (R104). -/
def Obligations.StxStoresX : Prop :=
  ∀ (s : State) (b : Byte) (w : Addr) (op : Byte) (i : Instr) (f : MemForm) (a : Addr),
    (op, i, f) ∈ Claims.stxForms b w →
    f.ea s = .next a → s.isPlain a = true →
    i.opcode = op ∧ ∃ t, exec i s = .next t ∧ t = { s with mem := t.mem, pc := Claims.nextPC i s } ∧
      Claims.WritesByte s t a s.regX

/-- STY in every form stores Y at the effective address and changes nothing else (R105). -/
def Obligations.StyStoresY : Prop :=
  ∀ (s : State) (b : Byte) (w : Addr) (op : Byte) (i : Instr) (f : MemForm) (a : Addr),
    (op, i, f) ∈ Claims.styForms b w →
    f.ea s = .next a → s.isPlain a = true →
    i.opcode = op ∧ ∃ t, exec i s = .next t ∧ t = { s with mem := t.mem, pc := Claims.nextPC i s } ∧
      Claims.WritesByte s t a s.regY

/-! ### Arithmetic -/

/-- ADC adds the operand and the carry to A, in every form: in binary with D = 0, in decimal with D = 1 (R110). -/
def Obligations.AdcAdds : Prop :=
  ∀ (s : State) (b : Byte) (w : Addr) (op : Byte) (i : Instr) (f : ReadForm) (m r : Byte) (t : Nat),
    (op, i, f) ∈ Claims.adcForms b w →
    f.read s = .next m → t = s.regA.toNat + m.toNat + (if s.flagC then 1 else 0) → r.toNat = t % 256 →
    i.opcode = op ∧
    (s.flagD = false → exec i s = .next { s with
      regA := r, flagC := decide (255 < t),
      flagV := !decide (-128 ≤ s.regA.toInt + m.toInt + (if s.flagC then 1 else 0) ∧
        s.regA.toInt + m.toInt + (if s.flagC then 1 else 0) ≤ 127),
      flagN := r.getLsbD 7, flagZ := decide (t % 256 = 0), pc := Claims.nextPC i s }) ∧
    (s.flagD = true → exec i s = .next { addDecimal m s with pc := Claims.nextPC i s })

/-- SBC subtracts the operand and the borrow from A, in every form: in binary with D = 0, in decimal with D = 1 (R111). -/
def Obligations.SbcSubtracts : Prop :=
  ∀ (s : State) (b : Byte) (w : Addr) (op : Byte) (i : Instr) (f : ReadForm) (m r : Byte) (t : Int),
    (op, i, f) ∈ Claims.sbcForms b w →
    f.read s = .next m → t = (s.regA.toNat : Int) - m.toNat - (if s.flagC then 0 else 1) →
    (r.toNat : Int) = t % 256 →
    i.opcode = op ∧
    (s.flagD = false → exec i s = .next { s with
      regA := r, flagC := decide (0 ≤ t),
      flagV := !decide (-128 ≤ s.regA.toInt - m.toInt - (if s.flagC then 0 else 1) ∧
        s.regA.toInt - m.toInt - (if s.flagC then 0 else 1) ≤ 127),
      flagN := r.getLsbD 7, flagZ := decide (t % 256 = 0), pc := Claims.nextPC i s }) ∧
    (s.flagD = true → exec i s = .next { subDecimal m s with pc := Claims.nextPC i s })

/-- ADC with D = 1: on valid digits A and C are the decimal result; only A, C, N, V, Z and the draws change (R113). -/
def Obligations.AdcDecimalAdds : Prop :=
  ∀ (s : State) (b : Byte) (w : Addr) (op : Byte) (i : Instr) (f : ReadForm) (m : Byte) (t : Int),
    (op, i, f) ∈ Claims.adcForms b w →
    f.read s = .next m → s.flagD = true → t = (bcdValue s.regA : Int) + bcdValue m + (if s.flagC then 1 else 0) →
    i.opcode = op ∧ ∃ (r : Byte) (c n v z : Bool) (k : Nat),
      exec i s = .next { s with regA := r, flagC := c, flagN := n, flagV := v, flagZ := z, draws := k,
                                pc := Claims.nextPC i s } ∧
      (validBcd s.regA = true → validBcd m = true →
        validBcd r = true ∧ (bcdValue r : Int) = t % 100 ∧ c = decide (100 ≤ t))

/-- SBC with D = 1: on valid digits A and C are the decimal result; only A, C, N, V, Z and the draws change (R114). -/
def Obligations.SbcDecimalSubtracts : Prop :=
  ∀ (s : State) (b : Byte) (w : Addr) (op : Byte) (i : Instr) (f : ReadForm) (m : Byte) (t : Int),
    (op, i, f) ∈ Claims.sbcForms b w →
    f.read s = .next m → s.flagD = true → t = (bcdValue s.regA : Int) - bcdValue m - (if s.flagC then 0 else 1) →
    i.opcode = op ∧ ∃ (r : Byte) (c n v z : Bool) (k : Nat),
      exec i s = .next { s with regA := r, flagC := c, flagN := n, flagV := v, flagZ := z, draws := k,
                                pc := Claims.nextPC i s } ∧
      (validBcd s.regA = true → validBcd m = true →
        validBcd r = true ∧ (bcdValue r : Int) = t % 100 ∧ c = decide (0 ≤ t))

/-- With D = 0, SBC of m is ADC of m ^ 0xFF, and with C = 1 its N, Z, C are those of CMP (R115). -/
def Obligations.SbcIsAdcOfComplement : Prop :=
  ∀ (s : State) (m : Byte), s.flagD = false →
    exec (.sbcImm m) s = exec (.adcImm (m ^^^ 0xFF)) s ∧
    (s.flagC = true → ∃ t u, exec (.sbcImm m) s = .next t ∧ exec (.cmpImm m) s = .next u ∧
      t.flagN = u.flagN ∧ t.flagZ = u.flagZ ∧ t.flagC = u.flagC ∧ u.regA = s.regA ∧ u.flagV = s.flagV)

/-- Two ADCs chained through C add 16-bit numbers: the last C is the carry out, the last V the signed overflow (R115). -/
def Obligations.CarryChainsTwoByteAddition : Prop :=
  ∀ (s u t v : State) (m n : Byte), s.flagD = false → u.flagD = false → s.flagC = false →
    exec (.adcImm m) s = .next t → u.flagC = t.flagC → exec (.adcImm n) u = .next v →
    256 * v.regA.toNat + t.regA.toNat + 65536 * (if v.flagC then 1 else 0) =
      (256 * u.regA.toNat + s.regA.toNat) + (256 * n.toNat + m.toNat) ∧
    (v.flagV = false ↔
      -32768 ≤ (256 * u.regA.toInt + s.regA.toNat) + (256 * n.toInt + m.toNat) ∧
      (256 * u.regA.toInt + s.regA.toNat) + (256 * n.toInt + m.toNat) ≤ 32767)

/-! ### Increment, decrement, shift and rotate -/

/-- INC and DEC change the byte at the effective address by one, modulo 256, and set N and Z (R120, R123). -/
def Obligations.IncAndDecModifyMemory : Prop :=
  ∀ (s : State) (b : Byte) (w : Addr) (op : Byte) (i : Instr) (f : MemForm) (r : Byte → Byte) (a : Addr),
    (op, i, f, r) ∈ Claims.incDecForms b w →
    f.ea s = .next a → s.isPlain a = true →
    i.opcode = op ∧ ∃ t, exec i s = .next t ∧
      t = { s with mem := t.mem, flagN := (r (byteAt s a)).getLsbD 7, flagZ := r (byteAt s a) == 0,
                   pc := Claims.nextPC i s } ∧
      Claims.WritesByte s t a (r (byteAt s a))

/-- INX, INY, DEX, DEY change X or Y by one, modulo 256, and set N and Z (R121, R122, R124, R125). -/
def Obligations.IndexIncrementAndDecrement : Prop :=
  ∀ (s : State) (r : Byte),
    (Instr.inx.opcode = 0xE8 ∧ Instr.iny.opcode = 0xC8 ∧ Instr.dex.opcode = 0xCA ∧ Instr.dey.opcode = 0x88) ∧
    (r.toNat = (s.regX.toNat + 1) % 256 →
      exec .inx s = .next { s with regX := r, flagN := r.getLsbD 7, flagZ := r == 0, pc := s.pc + 1 }) ∧
    (r.toNat = (s.regY.toNat + 1) % 256 →
      exec .iny s = .next { s with regY := r, flagN := r.getLsbD 7, flagZ := r == 0, pc := s.pc + 1 }) ∧
    ((r.toNat : Int) = ((s.regX.toNat : Int) - 1) % 256 →
      exec .dex s = .next { s with regX := r, flagN := r.getLsbD 7, flagZ := r == 0, pc := s.pc + 1 }) ∧
    ((r.toNat : Int) = ((s.regY.toNat : Int) - 1) % 256 →
      exec .dey s = .next { s with regY := r, flagN := r.getLsbD 7, flagZ := r == 0, pc := s.pc + 1 })

/-- ASL, LSR, ROL, ROR of A move it by one bit, C taking the bit that leaves (R130, R131, R132, R133). -/
def Obligations.ShiftsOfTheAccumulator : Prop :=
  ∀ (s : State) (op : Byte) (i : Instr) (n : Nat) (c : Bool) (r : Byte),
    (op, i, n, c) ∈ Claims.accumulatorShifts s →
    r.toNat = n →
    i.opcode = op ∧ exec i s = .next { s with
      regA := r, flagC := c, flagN := r.getLsbD 7, flagZ := r == 0, pc := s.pc + 1 }

/-- ASL, LSR, ROL, ROR of a byte of memory move it by one bit, C taking the bit that leaves (R130, R131, R132, R133). -/
def Obligations.ShiftsOfMemory : Prop :=
  ∀ (s : State) (b : Byte) (w : Addr) (op : Byte) (i : Instr) (f : MemForm) (n : Nat) (c : Bool) (a : Addr) (r : Byte),
    (op, i, f, n, c) ∈ Claims.memoryShifts s b w (byteAt s a) →
    f.ea s = .next a → s.isPlain a = true → r.toNat = n →
    i.opcode = op ∧ ∃ t, exec i s = .next t ∧
      t = { s with mem := t.mem, flagC := c, flagN := r.getLsbD 7, flagZ := r == 0, pc := Claims.nextPC i s } ∧
      Claims.WritesByte s t a r

/-- Nine ROLs of A restore A and C, and nine RORs likewise (R132, R133). -/
def Obligations.NineRotationsRestore : Prop :=
  ∀ (i : Instr), i ∈ [Instr.rolA, .rorA] → ∀ s : State,
    ∃ t, Claims.execTimes 9 i s = .next t ∧ t.regA = s.regA ∧ t.flagC = s.flagC

/-! ### Logic, compare, bit test -/

/-- AND, ORA, EOR in every form combine the operand with A and set N and Z (R140, R141, R142). -/
def Obligations.LogicCombinesOperandWithA : Prop :=
  ∀ (s : State) (b : Byte) (w : Addr) (op : Byte) (i : Instr) (f : ReadForm) (g : Byte → Byte → Byte) (m : Byte),
    (op, i, f, g) ∈ Claims.logicForms b w →
    f.read s = .next m →
    i.opcode = op ∧ exec i s = .next { s with
      regA := g s.regA m, flagN := (g s.regA m).getLsbD 7, flagZ := g s.regA m == 0, pc := Claims.nextPC i s }

/-- CMP, CPX, CPY in every form set C, Z, N from register - operand and write nothing else (R150, R151, R152, R153). -/
def Obligations.CompareSetsFlagsOnly : Prop :=
  ∀ (s : State) (b : Byte) (w : Addr) (op : Byte) (i : Instr) (f : ReadForm) (r m t : Byte),
    (op, i, f, r) ∈ Claims.compareForms s b w →
    f.read s = .next m → (t.toNat : Int) = ((r.toNat : Int) - m.toNat) % 256 →
    i.opcode = op ∧ exec i s = .next { s with
      flagC := decide (m.toNat ≤ r.toNat), flagZ := decide (r = m), flagN := t.getLsbD 7, pc := Claims.nextPC i s }

/-- BIT sets Z from A & M, and N and V from bits 7 and 6 of M (in mode # only under the parameter) (R154). -/
def Obligations.BitTestsTheOperand : Prop :=
  ∀ (s : State) (b : Byte) (w : Addr) (op : Byte) (i : Instr) (f : ReadForm) (writes : Bool) (m : Byte),
    (op, i, f, writes) ∈ Claims.bitForms s b w →
    f.read s = .next m →
    i.opcode = op ∧ exec i s = .next { s with
      flagZ := decide (s.regA &&& m = 0),
      flagN := if writes then m.getLsbD 7 else s.flagN,
      flagV := if writes then m.getLsbD 6 else s.flagV, pc := Claims.nextPC i s }

/-! ### Branches and transfers -/

/-- The eight branches: the condition, the target modulo 65536, and nothing else written (R160, R161, R162, R163, R164, R165, R166, R167, R168). -/
def Obligations.BranchesGoWhereTheDisplacementSays : Prop :=
  ∀ (s : State) (disp op : Byte) (i : Instr) (taken : Bool),
    (op, i, taken) ∈ Claims.branchForms s disp →
    i.opcode = op ∧ exec i s = .next { s with
      pc := if taken then BitVec.ofInt 16 ((s.pc.toNat : Int) + 2 + disp.toInt) else s.pc + 2 }

/-- TAX, TXA, TAY, TYA, TSX copy a register and set N and Z from it (R170, R171, R172, R173, R174). -/
def Obligations.TransfersCopyAndSetNZ : Prop :=
  ∀ s : State,
    (Instr.tax.opcode = 0xAA ∧ Instr.txa.opcode = 0x8A ∧ Instr.tay.opcode = 0xA8 ∧ Instr.tya.opcode = 0x98 ∧
      Instr.tsx.opcode = 0xBA) ∧
    exec .tax s = .next { s with regX := s.regA, flagN := s.regA.getLsbD 7, flagZ := s.regA == 0, pc := s.pc + 1 } ∧
    exec .txa s = .next { s with regA := s.regX, flagN := s.regX.getLsbD 7, flagZ := s.regX == 0, pc := s.pc + 1 } ∧
    exec .tay s = .next { s with regY := s.regA, flagN := s.regA.getLsbD 7, flagZ := s.regA == 0, pc := s.pc + 1 } ∧
    exec .tya s = .next { s with regA := s.regY, flagN := s.regY.getLsbD 7, flagZ := s.regY == 0, pc := s.pc + 1 } ∧
    exec .tsx s = .next { s with regX := s.regS, flagN := s.regS.getLsbD 7, flagZ := s.regS == 0, pc := s.pc + 1 }

/-- TXS copies X to S; it writes N and Z exactly under TXS_WRITES_NZ (R175). -/
def Obligations.TxsSetsTheStackPointer : Prop :=
  ∀ s : State, Instr.txs.opcode = 0x9A ∧ exec .txs s = .next { s with
    regS := s.regX, pc := s.pc + 1,
    flagN := if s.params.txsWritesNZ then s.regX.getLsbD 7 else s.flagN,
    flagZ := if s.params.txsWritesNZ then s.regX == 0 else s.flagZ }

/-! ### The stack -/

/-- PackP puts N V 1 b D I Z C in bits 7 to 0; UnpackP takes the six flags back and drops bits 5 and 4 (R32). -/
def Obligations.StatusByteLayout : Prop :=
  ∀ (s : State) (b : Bool) (v : Byte),
    ((packP b s).getLsbD 7 = s.flagN ∧ (packP b s).getLsbD 6 = s.flagV ∧ (packP b s).getLsbD 5 = true ∧
      (packP b s).getLsbD 4 = b ∧ (packP b s).getLsbD 3 = s.flagD ∧ (packP b s).getLsbD 2 = s.flagI ∧
      (packP b s).getLsbD 1 = s.flagZ ∧ (packP b s).getLsbD 0 = s.flagC) ∧
    unpackP v s = { s with flagN := v.getLsbD 7, flagV := v.getLsbD 6, flagD := v.getLsbD 3, flagI := v.getLsbD 2,
                           flagZ := v.getLsbD 1, flagC := v.getLsbD 0 } ∧
    packP true (unpackP v s) = v ||| 0x30 ∧ 0x30 ≤ (packP true s).toNat

/-- PHA pushes A and PHP the status byte with bits 5 and 4 set; S moves down, wrapping in page one (R176, R178). -/
def Obligations.PhaAndPhpPush : Prop :=
  ∀ (s : State) (op : Byte) (i : Instr) (v : Byte),
    (op, i, v) ∈ Claims.pushForms s →
    s.isPlain (stackAddr s.regS) = true →
    (stackAddr s.regS).toNat = 0x0100 + s.regS.toNat ∧
    i.opcode = op ∧ ∃ t, exec i s = .next t ∧ t = { s with mem := t.mem, regS := s.regS - 1, pc := s.pc + 1 } ∧
      Claims.WritesByte s t (stackAddr s.regS) v

/-- PLA moves S up and loads A from the stack, setting N and Z (R177). -/
def Obligations.PlaPulls : Prop :=
  ∀ (s : State) (m : Byte), s.isPlain (stackAddr (s.regS + 1)) = true → m = byteAt s (stackAddr (s.regS + 1)) →
    Instr.pla.opcode = 0x68 ∧ exec .pla s = .next { s with
      regA := m, regS := s.regS + 1, flagN := m.getLsbD 7, flagZ := m == 0, pc := s.pc + 1 }

/-- PLP moves S up and takes the six flags from the stack; i_poll keeps the I from before (R179). -/
def Obligations.PlpPullsTheFlags : Prop :=
  ∀ (s : State) (v : Byte), s.isPlain (stackAddr (s.regS + 1)) = true → v = byteAt s (stackAddr (s.regS + 1)) →
    Instr.plp.opcode = 0x28 ∧ exec .plp s = .next { s with
      flagN := v.getLsbD 7, flagV := v.getLsbD 6, flagD := v.getLsbD 3, flagI := v.getLsbD 2, flagZ := v.getLsbD 1,
      flagC := v.getLsbD 0, regS := s.regS + 1, pc := s.pc + 1,
      iPoll := if s.params.hwInterrupts then s.flagI else s.iPoll }

/-! ### Jumps and subroutines -/

/-- JMP a goes to its operand, JMP (a,x) and JMP (a) to the pointer they find, which JMP_IND_PAGE_WRAP moves (R190, R191, R192). -/
def Obligations.JumpsGoToTheirTargets : Prop :=
  ∀ (s : State) (w p q : Addr) (target : Addr),
    (Instr.jmpAbs w).opcode = 0x4C ∧ (Instr.jmpIndAbsX w).opcode = 0x7C ∧ (Instr.jmpInd w).opcode = 0x6C ∧
    exec (.jmpAbs w) s = .next { s with pc := w } ∧
    (s.isPlain p = true → s.isPlain q = true → target.toNat = 256 * (byteAt s q).toNat + (byteAt s p).toNat →
      (p.toNat = (w.toNat + s.regX.toNat) % 65536 → q = p + 1 →
        exec (.jmpIndAbsX w) s = .next { s with pc := target }) ∧
      (p = w → q.toNat = (if s.params.jmpIndPageWrap then 256 * (w.toNat / 256) + (w.toNat + 1) % 256
          else (w.toNat + 1) % 65536) →
        exec (.jmpInd w) s = .next { s with pc := target }))

/-- JSR pushes PC + 2, high byte then low byte, and goes to its operand (R193). -/
def Obligations.JsrSavesTheReturnAddress : Prop :=
  ∀ (s : State) (w : Addr),
    s.isPlain (stackAddr s.regS) = true → s.isPlain (stackAddr (s.regS - 1)) = true →
    (Instr.jsr w).opcode = 0x20 ∧ ∃ t, exec (.jsr w) s = .next t ∧
      t = { s with mem := t.mem, regS := s.regS - 2, pc := w } ∧
      ∀ x, byteAt t x =
        if x = stackAddr (s.regS - 1) ∧ s.isRam x = true then loByte (s.pc + 2)
        else if x = stackAddr s.regS ∧ s.isRam x = true then hiByte (s.pc + 2)
        else byteAt s x

/-- RTS pulls PC, low byte first, and adds 1; RTI pulls the flags and then PC, and adds nothing (R194, R195). -/
def Obligations.RtsAndRtiReturn : Prop :=
  ∀ (s : State) (v lo hi : Byte),
    Instr.rts.opcode = 0x60 ∧ Instr.rti.opcode = 0x40 ∧
    (s.isPlain (stackAddr (s.regS + 1)) = true → s.isPlain (stackAddr (s.regS + 2)) = true →
      lo = byteAt s (stackAddr (s.regS + 1)) → hi = byteAt s (stackAddr (s.regS + 2)) →
      exec .rts s = .next { s with pc := joinBytes hi lo + 1, regS := s.regS + 2 }) ∧
    (s.isPlain (stackAddr (s.regS + 1)) = true → s.isPlain (stackAddr (s.regS + 2)) = true →
      s.isPlain (stackAddr (s.regS + 3)) = true →
      v = byteAt s (stackAddr (s.regS + 1)) → lo = byteAt s (stackAddr (s.regS + 2)) →
      hi = byteAt s (stackAddr (s.regS + 3)) →
      exec .rti s = .next { s with
        flagN := v.getLsbD 7, flagV := v.getLsbD 6, flagD := v.getLsbD 3, flagI := v.getLsbD 2, flagZ := v.getLsbD 1,
        flagC := v.getLsbD 0, pc := joinBytes hi lo, regS := s.regS + 3 }) ∧
    (∀ t, exec .rti s = .next t → s.params.hwInterrupts = true → (afterInstruction .rti t).iPoll = t.flagI)

/-- RTS right after a JSR returns to the instruction after the JSR, with S as before (R193, R194). -/
def Obligations.RtsUndoesJsr : Prop :=
  ∀ (s t : State) (w : Addr), s.isRam (stackAddr s.regS) = true → s.isRam (stackAddr (s.regS - 1)) = true →
    exec (.jsr w) s = .next t → ∃ u, exec .rts t = .next u ∧ u = { s with mem := u.mem, pc := s.pc + 3 }

/-! ### Flags, NOP, BRK -/

/-- SEC, SED, SEI, CLC, CLD, CLI, CLV write one flag each, and NOP nothing (R200, R201, R202, R203, R204, R205, R206, R207). -/
def Obligations.FlagInstructionsWriteOneFlag : Prop :=
  ∀ s : State,
    (Instr.sec.opcode = 0x38 ∧ Instr.sed.opcode = 0xF8 ∧ Instr.sei.opcode = 0x78 ∧ Instr.clc.opcode = 0x18 ∧
      Instr.cld.opcode = 0xD8 ∧ Instr.cli.opcode = 0x58 ∧ Instr.clv.opcode = 0xB8 ∧ Instr.nop.opcode = 0xEA) ∧
    exec .sec s = .next { s with flagC := true, pc := s.pc + 1 } ∧
    exec .sed s = .next { s with flagD := true, pc := s.pc + 1 } ∧
    exec .sei s = .next { s with
      flagI := true, pc := s.pc + 1, iPoll := if s.params.hwInterrupts then s.flagI else s.iPoll } ∧
    exec .clc s = .next { s with flagC := false, pc := s.pc + 1 } ∧
    exec .cld s = .next { s with flagD := false, pc := s.pc + 1 } ∧
    exec .cli s = .next { s with
      flagI := false, pc := s.pc + 1, iPoll := if s.params.hwInterrupts then s.flagI else s.iPoll } ∧
    exec .clv s = .next { s with flagV := false, pc := s.pc + 1 } ∧
    exec .nop s = .next { s with pc := s.pc + 1 }

/-- BRK pushes PC + 2 and the status with bit 4 set, sets I, and goes through the vector at 0xFFFE (R208, R221). -/
def Obligations.BrkTakesTheException : Prop :=
  ∀ s : State, Claims.EntryPossible s 0xFFFE →
    Instr.brk.opcode = 0x00 ∧ ∃ t, exec .brk s = .next t ∧ Claims.InterruptTaken s t 0xFFFE true (s.pc + 2)

/-- RTI right after a BRK restores all flags and S and returns past the byte after the BRK (R208, R195, R230). -/
def Obligations.RtiUndoesBrk : Prop :=
  ∀ s t : State, s.isRam (stackAddr s.regS) = true → s.isRam (stackAddr (s.regS - 1)) = true →
    s.isRam (stackAddr (s.regS - 2)) = true → exec .brk s = .next t →
    ∃ u, exec .rti t = .next u ∧ u = { s with mem := u.mem, pc := s.pc + 2, iPoll := t.iPoll }

/-! ### Interrupts and reset -/

/-- At a boundary reset comes first, then NMI, then IRQ, then one instruction; the loser is not lost (R225, R226, R227). That
reset is a level which the step looks at is the model's choice (notes/assumptions/8.md, DESIGN CHOICE), and that it is taken
without `HW_INTERRUPTS` too, where R226 says that the boundary always executes one instruction, is the model's reading of
R225 (notes/assumptions/12.md, DEDUCED). -/
def Obligations.BoundaryPriority : Prop :=
  ∀ s : State, s.faultMark = false →
    (s.resetLine = true → step s = takeReset s) ∧
    (s.resetLine = false → s.params.hwInterrupts = true →
      (s.nmiPending = true → step s = takeNmi s ∧ ∀ t, step s = .next t → t.irqLine = s.irqLine ∧ t.flagI = true ∧ irqDue t = false) ∧
      (s.nmiPending = false →
        (s.irqLine = true ∧ s.iPoll = false → step s = takeIrq s) ∧
        (s.irqLine = false ∨ s.iPoll = true → step s = runInstruction s))) ∧
    (s.resetLine = false → s.params.hwInterrupts = false → step s = runInstruction s)

/-- An NMI is taken whatever I is: the latch is cleared, PC and status with bit 4 = 0 are pushed, PC comes from 0xFFFA (R224). -/
def Obligations.NmiEntry : Prop :=
  ∀ s : State, s.faultMark = false → s.resetLine = false → s.params.hwInterrupts = true → s.nmiPending = true →
    platformMove s .nmiEdge = s ∧ platformMove { s with nmiPending := false } .nmiEdge = s ∧
    (Claims.EntryPossible s 0xFFFA →
      ∃ t, step s = .next t ∧ Claims.InterruptTaken { s with nmiPending := false } t 0xFFFA false s.pc)

/-- An IRQ is taken when irq_line = 1 and i_poll = 0: PC and status with bit 4 = 0 are pushed, PC comes from 0xFFFE (R223, R228). -/
def Obligations.IrqEntry : Prop :=
  ∀ s : State, s.faultMark = false → s.resetLine = false → s.params.hwInterrupts = true → s.nmiPending = false →
    s.irqLine = true → s.iPoll = false → Claims.EntryPossible s 0xFFFE →
    ∃ t, step s = .next t ∧ Claims.InterruptTaken s t 0xFFFE false s.pc ∧ t.irqLine = true ∧ irqDue t = false

/-- After CLI, SEI and PLP the next decision uses the I from before; after every other instruction the I it left (R226, R266).
That i_poll never changes without `HW_INTERRUPTS` is the model's (notes/assumptions/13.md, DEDUCED). -/
def Obligations.MaskTakesEffectOneBoundaryLate : Prop :=
  ∀ (i : Instr) (s t : State), exec i s = .next t →
    (s.params.hwInterrupts = true → (afterInstruction i t).iPoll =
      if i ∈ [Instr.cli, .sei, .plp] then s.flagI else t.flagI) ∧
    (s.params.hwInterrupts = false → (afterInstruction i t).iPoll = s.iPoll)

/-- Reset sets I, clears D under INT_CLEARS_D, takes PC from 0xFFFC, clears nmi_pending, sets i_poll, writes no memory (R260),
and leaves irq_line to the platform (R37). That it leaves the reset line as it was, and that it may advance `draws`, are the
model's choices (notes/assumptions/8.md, 7.md, DESIGN CHOICE). -/
def Obligations.ResetSequence : Prop :=
  ∀ (s : State) (target : Addr), s.faultMark = false → s.resetLine = true →
    s.isPlain 0xFFFC = true → s.isPlain 0xFFFD = true →
    target.toNat = 256 * (byteAt s 0xFFFD).toNat + (byteAt s 0xFFFC).toNat →
    ∃ t, step s = .next t ∧
      t = { s with
        regA := t.regA, regX := t.regX, regY := t.regY, regS := t.regS, flagN := t.flagN, flagV := t.flagV,
        flagZ := t.flagZ, flagC := t.flagC, draws := t.draws,
        flagD := if s.params.intClearsD then false else t.flagD, flagI := true, pc := target,
        nmiPending := if s.params.hwInterrupts then false else s.nmiPending,
        iPoll := if s.params.hwInterrupts then true else s.iPoll }

/-- The state after reset has I = 1, i_poll = 1, nmi_pending = 0, no fault mark, and nothing written in memory (R39, R261).
That memory with nothing written is the empty list is the model's form (notes/assumptions/5.md, DESIGN CHOICE). -/
def Obligations.ResetStateIsAfterReset : Prop :=
  State.reset.flagI = true ∧ State.reset.iPoll = true ∧ State.reset.nmiPending = false ∧
    State.reset.faultMark = false ∧ State.reset.mem = []

/-! ### The whole machine -/

/-- Every step keeps memory in its canonical form (the model's own form) (R40, notes/assumptions/5.md). -/
def Obligations.StepKeepsMemoryCanonical : Prop :=
  ∀ s t : State, Memory.wf s.mem → step s = .next t → Memory.wf t.mem

/-- The memory after reset has the canonical form (the model's own form) (R40, notes/assumptions/5.md). -/
def Obligations.ResetMemoryIsCanonical : Prop :=
  Memory.wf State.reset.mem

/-- No step changes irq_line or sets the NMI latch (R37, R223). The other clauses are the model's choices: no step changes
the reset line (notes/assumptions/8.md), nor the fault mark, which the run sets (notes/assumptions/9.md), nor a parameter,
which R8 fixes and the model holds as a field of the state (notes/assumptions/4.md); DESIGN CHOICE, all three. -/
def Obligations.ProcessorNeverDrivesItsInputs : Prop :=
  ∀ s t : State, step s = .next t →
    t.irqLine = s.irqLine ∧ t.resetLine = s.resetLine ∧ t.params = s.params ∧ t.faultMark = s.faultMark ∧
    (t.nmiPending = true → s.nmiPending = true)

/-- Each flag is written only by the instructions that the spec lists for it (R25, R26, R27, R28, R30, R31). -/
def Obligations.FlagsWrittenOnlyByListedInstructions : Prop :=
  ∀ (i : Instr) (s t : State), exec i s = .next t →
    (i.mnemonic ∉ [.adc, .sbc, .asl, .rol, .lsr, .ror, .cmp, .cpx, .cpy, .sec, .clc, .plp, .rti] → t.flagC = s.flagC) ∧
    (i.mnemonic ∉ [.sei, .cli, .brk, .plp, .rti] → t.flagI = s.flagI) ∧
    (i.mnemonic ∉ [.sed, .cld, .plp, .rti] → s.params.intClearsD = false ∨ i ≠ .brk → t.flagD = s.flagD) ∧
    (i.mnemonic ∉ [.adc, .sbc, .bit, .clv, .plp, .rti] → t.flagV = s.flagV) ∧
    (i.mnemonic ∉ Claims.writersOfZ → s.params.txsWritesNZ = false ∨ i ≠ .txs → t.flagZ = s.flagZ) ∧
    (i.mnemonic ∉ Claims.writersOfZ → s.params.txsWritesNZ = false ∨ i ≠ .txs → t.flagN = s.flagN)

/-- A, X, Y, S and memory are written only by the instructions that the spec lists for each (R20, R21, R22, R23, R42). The last
two clauses are about the model: `draws` is its own field, advanced by ADC and SBC alone (R113, R114; notes/assumptions/7.md,
DESIGN CHOICE), and within `exec` i_poll is written by CLI, SEI, PLP and BRK alone, the boundary doing the rest (R226, R228;
notes/assumptions/13.md, DEDUCED). -/
def Obligations.RegistersAndMemoryWrittenOnlyByListedInstructions : Prop :=
  ∀ (i : Instr) (s t : State), exec i s = .next t →
    (i.mnemonic ∉ [.lda, .adc, .sbc, .and, .ora, .eor, .txa, .tya, .pla] → i.mode ≠ .accumulator → t.regA = s.regA) ∧
    (i.mnemonic ∉ [.ldx, .tax, .tsx, .inx, .dex] → t.regX = s.regX) ∧
    (i.mnemonic ∉ [.ldy, .tay, .iny, .dey] → t.regY = s.regY) ∧
    (i.mnemonic ∉ [.txs, .pha, .php, .pla, .plp, .jsr, .rts, .rti, .brk] → t.regS = s.regS) ∧
    (i.mnemonic ∉ [.sta, .stx, .sty, .inc, .dec, .asl, .lsr, .rol, .ror, .pha, .php, .jsr, .brk] ∨ i.mode = .accumulator →
      ∀ a, byteAt t a = byteAt s a) ∧
    (i.mnemonic ∉ [.adc, .sbc] → t.draws = s.draws) ∧
    (i.mnemonic ∉ [.cli, .sei, .plp, .brk] → t.iPoll = s.iPoll)

/-- D changes what no instruction does but ADC, SBC and those that push the status byte (R115, R28). -/
def Obligations.DecimalModeMattersToAdcAndSbcOnly : Prop :=
  ∀ (i : Instr) (s t : State) (d : Bool), i.mnemonic ∉ [.adc, .sbc, .php, .brk] → exec i s = .next t →
    ∃ u, exec i { s with flagD := d } = .next u ∧ { u with flagD := t.flagD } = t

/-- No instruction faults, and on plain memory every instruction goes on (R222). -/
def Obligations.NoInstructionFaults : Prop :=
  ∀ (i : Instr) (s : State),
    (∀ r, exec i s ≠ .fault r) ∧ ((∀ a, s.isPlain a = true) → ∃ t, exec i s = .next t)
end

