-- ==== Sys2Proof/Laws/State.lean ====
section
/-! SUPPORT. What each update of the state does to each field, so that no proof unfolds an update. -/

namespace Sys2Proof.Machine

/-! ### `setMem` -/

@[simp] theorem setMem_regA (m : List Host.Cell) (s : State) : (setMem m s).regA = s.regA := rfl
@[simp] theorem setMem_regX (m : List Host.Cell) (s : State) : (setMem m s).regX = s.regX := rfl
@[simp] theorem setMem_regY (m : List Host.Cell) (s : State) : (setMem m s).regY = s.regY := rfl
@[simp] theorem setMem_regS (m : List Host.Cell) (s : State) : (setMem m s).regS = s.regS := rfl
@[simp] theorem setMem_pc (m : List Host.Cell) (s : State) : (setMem m s).pc = s.pc := rfl
@[simp] theorem setMem_flagN (m : List Host.Cell) (s : State) : (setMem m s).flagN = s.flagN := rfl
@[simp] theorem setMem_flagV (m : List Host.Cell) (s : State) : (setMem m s).flagV = s.flagV := rfl
@[simp] theorem setMem_flagD (m : List Host.Cell) (s : State) : (setMem m s).flagD = s.flagD := rfl
@[simp] theorem setMem_flagI (m : List Host.Cell) (s : State) : (setMem m s).flagI = s.flagI := rfl
@[simp] theorem setMem_flagZ (m : List Host.Cell) (s : State) : (setMem m s).flagZ = s.flagZ := rfl
@[simp] theorem setMem_flagC (m : List Host.Cell) (s : State) : (setMem m s).flagC = s.flagC := rfl
@[simp] theorem setMem_mem (m : List Host.Cell) (s : State) : (setMem m s).mem = m := rfl
@[simp] theorem setMem_irqLine (m : List Host.Cell) (s : State) : (setMem m s).irqLine = s.irqLine := rfl
@[simp] theorem setMem_nmiPending (m : List Host.Cell) (s : State) : (setMem m s).nmiPending = s.nmiPending := rfl
@[simp] theorem setMem_iPoll (m : List Host.Cell) (s : State) : (setMem m s).iPoll = s.iPoll := rfl
@[simp] theorem setMem_resetLine (m : List Host.Cell) (s : State) : (setMem m s).resetLine = s.resetLine := rfl
@[simp] theorem setMem_faultMark (m : List Host.Cell) (s : State) : (setMem m s).faultMark = s.faultMark := rfl
@[simp] theorem setMem_draws (m : List Host.Cell) (s : State) : (setMem m s).draws = s.draws := rfl
@[simp] theorem setMem_params (m : List Host.Cell) (s : State) : (setMem m s).params = s.params := rfl
@[simp] theorem isPlain_setMem (m : List Host.Cell) (s : State) (addr : Addr) : (setMem m s).isPlain addr = s.isPlain addr := rfl
@[simp] theorem isRam_setMem (m : List Host.Cell) (s : State) (addr : Addr) : (setMem m s).isRam addr = s.isRam addr := rfl

/-! ### `setA` -/

@[simp] theorem setA_regA (v : Byte) (s : State) : (setA v s).regA = v := rfl
@[simp] theorem setA_regX (v : Byte) (s : State) : (setA v s).regX = s.regX := rfl
@[simp] theorem setA_regY (v : Byte) (s : State) : (setA v s).regY = s.regY := rfl
@[simp] theorem setA_regS (v : Byte) (s : State) : (setA v s).regS = s.regS := rfl
@[simp] theorem setA_pc (v : Byte) (s : State) : (setA v s).pc = s.pc := rfl
@[simp] theorem setA_flagN (v : Byte) (s : State) : (setA v s).flagN = s.flagN := rfl
@[simp] theorem setA_flagV (v : Byte) (s : State) : (setA v s).flagV = s.flagV := rfl
@[simp] theorem setA_flagD (v : Byte) (s : State) : (setA v s).flagD = s.flagD := rfl
@[simp] theorem setA_flagI (v : Byte) (s : State) : (setA v s).flagI = s.flagI := rfl
@[simp] theorem setA_flagZ (v : Byte) (s : State) : (setA v s).flagZ = s.flagZ := rfl
@[simp] theorem setA_flagC (v : Byte) (s : State) : (setA v s).flagC = s.flagC := rfl
@[simp] theorem setA_mem (v : Byte) (s : State) : (setA v s).mem = s.mem := rfl
@[simp] theorem setA_irqLine (v : Byte) (s : State) : (setA v s).irqLine = s.irqLine := rfl
@[simp] theorem setA_nmiPending (v : Byte) (s : State) : (setA v s).nmiPending = s.nmiPending := rfl
@[simp] theorem setA_iPoll (v : Byte) (s : State) : (setA v s).iPoll = s.iPoll := rfl
@[simp] theorem setA_resetLine (v : Byte) (s : State) : (setA v s).resetLine = s.resetLine := rfl
@[simp] theorem setA_faultMark (v : Byte) (s : State) : (setA v s).faultMark = s.faultMark := rfl
@[simp] theorem setA_draws (v : Byte) (s : State) : (setA v s).draws = s.draws := rfl
@[simp] theorem setA_params (v : Byte) (s : State) : (setA v s).params = s.params := rfl
@[simp] theorem byteAt_setA (v : Byte) (s : State) (addr : Addr) : byteAt (setA v s) addr = byteAt s addr := rfl
@[simp] theorem isPlain_setA (v : Byte) (s : State) (addr : Addr) : (setA v s).isPlain addr = s.isPlain addr := rfl
@[simp] theorem isRam_setA (v : Byte) (s : State) (addr : Addr) : (setA v s).isRam addr = s.isRam addr := rfl

/-! ### `setX` -/

@[simp] theorem setX_regA (v : Byte) (s : State) : (setX v s).regA = s.regA := rfl
@[simp] theorem setX_regX (v : Byte) (s : State) : (setX v s).regX = v := rfl
@[simp] theorem setX_regY (v : Byte) (s : State) : (setX v s).regY = s.regY := rfl
@[simp] theorem setX_regS (v : Byte) (s : State) : (setX v s).regS = s.regS := rfl
@[simp] theorem setX_pc (v : Byte) (s : State) : (setX v s).pc = s.pc := rfl
@[simp] theorem setX_flagN (v : Byte) (s : State) : (setX v s).flagN = s.flagN := rfl
@[simp] theorem setX_flagV (v : Byte) (s : State) : (setX v s).flagV = s.flagV := rfl
@[simp] theorem setX_flagD (v : Byte) (s : State) : (setX v s).flagD = s.flagD := rfl
@[simp] theorem setX_flagI (v : Byte) (s : State) : (setX v s).flagI = s.flagI := rfl
@[simp] theorem setX_flagZ (v : Byte) (s : State) : (setX v s).flagZ = s.flagZ := rfl
@[simp] theorem setX_flagC (v : Byte) (s : State) : (setX v s).flagC = s.flagC := rfl
@[simp] theorem setX_mem (v : Byte) (s : State) : (setX v s).mem = s.mem := rfl
@[simp] theorem setX_irqLine (v : Byte) (s : State) : (setX v s).irqLine = s.irqLine := rfl
@[simp] theorem setX_nmiPending (v : Byte) (s : State) : (setX v s).nmiPending = s.nmiPending := rfl
@[simp] theorem setX_iPoll (v : Byte) (s : State) : (setX v s).iPoll = s.iPoll := rfl
@[simp] theorem setX_resetLine (v : Byte) (s : State) : (setX v s).resetLine = s.resetLine := rfl
@[simp] theorem setX_faultMark (v : Byte) (s : State) : (setX v s).faultMark = s.faultMark := rfl
@[simp] theorem setX_draws (v : Byte) (s : State) : (setX v s).draws = s.draws := rfl
@[simp] theorem setX_params (v : Byte) (s : State) : (setX v s).params = s.params := rfl
@[simp] theorem byteAt_setX (v : Byte) (s : State) (addr : Addr) : byteAt (setX v s) addr = byteAt s addr := rfl
@[simp] theorem isPlain_setX (v : Byte) (s : State) (addr : Addr) : (setX v s).isPlain addr = s.isPlain addr := rfl
@[simp] theorem isRam_setX (v : Byte) (s : State) (addr : Addr) : (setX v s).isRam addr = s.isRam addr := rfl

/-! ### `setY` -/

@[simp] theorem setY_regA (v : Byte) (s : State) : (setY v s).regA = s.regA := rfl
@[simp] theorem setY_regX (v : Byte) (s : State) : (setY v s).regX = s.regX := rfl
@[simp] theorem setY_regY (v : Byte) (s : State) : (setY v s).regY = v := rfl
@[simp] theorem setY_regS (v : Byte) (s : State) : (setY v s).regS = s.regS := rfl
@[simp] theorem setY_pc (v : Byte) (s : State) : (setY v s).pc = s.pc := rfl
@[simp] theorem setY_flagN (v : Byte) (s : State) : (setY v s).flagN = s.flagN := rfl
@[simp] theorem setY_flagV (v : Byte) (s : State) : (setY v s).flagV = s.flagV := rfl
@[simp] theorem setY_flagD (v : Byte) (s : State) : (setY v s).flagD = s.flagD := rfl
@[simp] theorem setY_flagI (v : Byte) (s : State) : (setY v s).flagI = s.flagI := rfl
@[simp] theorem setY_flagZ (v : Byte) (s : State) : (setY v s).flagZ = s.flagZ := rfl
@[simp] theorem setY_flagC (v : Byte) (s : State) : (setY v s).flagC = s.flagC := rfl
@[simp] theorem setY_mem (v : Byte) (s : State) : (setY v s).mem = s.mem := rfl
@[simp] theorem setY_irqLine (v : Byte) (s : State) : (setY v s).irqLine = s.irqLine := rfl
@[simp] theorem setY_nmiPending (v : Byte) (s : State) : (setY v s).nmiPending = s.nmiPending := rfl
@[simp] theorem setY_iPoll (v : Byte) (s : State) : (setY v s).iPoll = s.iPoll := rfl
@[simp] theorem setY_resetLine (v : Byte) (s : State) : (setY v s).resetLine = s.resetLine := rfl
@[simp] theorem setY_faultMark (v : Byte) (s : State) : (setY v s).faultMark = s.faultMark := rfl
@[simp] theorem setY_draws (v : Byte) (s : State) : (setY v s).draws = s.draws := rfl
@[simp] theorem setY_params (v : Byte) (s : State) : (setY v s).params = s.params := rfl
@[simp] theorem byteAt_setY (v : Byte) (s : State) (addr : Addr) : byteAt (setY v s) addr = byteAt s addr := rfl
@[simp] theorem isPlain_setY (v : Byte) (s : State) (addr : Addr) : (setY v s).isPlain addr = s.isPlain addr := rfl
@[simp] theorem isRam_setY (v : Byte) (s : State) (addr : Addr) : (setY v s).isRam addr = s.isRam addr := rfl

/-! ### `setS` -/

@[simp] theorem setS_regA (v : Byte) (s : State) : (setS v s).regA = s.regA := rfl
@[simp] theorem setS_regX (v : Byte) (s : State) : (setS v s).regX = s.regX := rfl
@[simp] theorem setS_regY (v : Byte) (s : State) : (setS v s).regY = s.regY := rfl
@[simp] theorem setS_regS (v : Byte) (s : State) : (setS v s).regS = v := rfl
@[simp] theorem setS_pc (v : Byte) (s : State) : (setS v s).pc = s.pc := rfl
@[simp] theorem setS_flagN (v : Byte) (s : State) : (setS v s).flagN = s.flagN := rfl
@[simp] theorem setS_flagV (v : Byte) (s : State) : (setS v s).flagV = s.flagV := rfl
@[simp] theorem setS_flagD (v : Byte) (s : State) : (setS v s).flagD = s.flagD := rfl
@[simp] theorem setS_flagI (v : Byte) (s : State) : (setS v s).flagI = s.flagI := rfl
@[simp] theorem setS_flagZ (v : Byte) (s : State) : (setS v s).flagZ = s.flagZ := rfl
@[simp] theorem setS_flagC (v : Byte) (s : State) : (setS v s).flagC = s.flagC := rfl
@[simp] theorem setS_mem (v : Byte) (s : State) : (setS v s).mem = s.mem := rfl
@[simp] theorem setS_irqLine (v : Byte) (s : State) : (setS v s).irqLine = s.irqLine := rfl
@[simp] theorem setS_nmiPending (v : Byte) (s : State) : (setS v s).nmiPending = s.nmiPending := rfl
@[simp] theorem setS_iPoll (v : Byte) (s : State) : (setS v s).iPoll = s.iPoll := rfl
@[simp] theorem setS_resetLine (v : Byte) (s : State) : (setS v s).resetLine = s.resetLine := rfl
@[simp] theorem setS_faultMark (v : Byte) (s : State) : (setS v s).faultMark = s.faultMark := rfl
@[simp] theorem setS_draws (v : Byte) (s : State) : (setS v s).draws = s.draws := rfl
@[simp] theorem setS_params (v : Byte) (s : State) : (setS v s).params = s.params := rfl
@[simp] theorem byteAt_setS (v : Byte) (s : State) (addr : Addr) : byteAt (setS v s) addr = byteAt s addr := rfl
@[simp] theorem isPlain_setS (v : Byte) (s : State) (addr : Addr) : (setS v s).isPlain addr = s.isPlain addr := rfl
@[simp] theorem isRam_setS (v : Byte) (s : State) (addr : Addr) : (setS v s).isRam addr = s.isRam addr := rfl

/-! ### `setPC` -/

@[simp] theorem setPC_regA (a : Addr) (s : State) : (setPC a s).regA = s.regA := rfl
@[simp] theorem setPC_regX (a : Addr) (s : State) : (setPC a s).regX = s.regX := rfl
@[simp] theorem setPC_regY (a : Addr) (s : State) : (setPC a s).regY = s.regY := rfl
@[simp] theorem setPC_regS (a : Addr) (s : State) : (setPC a s).regS = s.regS := rfl
@[simp] theorem setPC_pc (a : Addr) (s : State) : (setPC a s).pc = a := rfl
@[simp] theorem setPC_flagN (a : Addr) (s : State) : (setPC a s).flagN = s.flagN := rfl
@[simp] theorem setPC_flagV (a : Addr) (s : State) : (setPC a s).flagV = s.flagV := rfl
@[simp] theorem setPC_flagD (a : Addr) (s : State) : (setPC a s).flagD = s.flagD := rfl
@[simp] theorem setPC_flagI (a : Addr) (s : State) : (setPC a s).flagI = s.flagI := rfl
@[simp] theorem setPC_flagZ (a : Addr) (s : State) : (setPC a s).flagZ = s.flagZ := rfl
@[simp] theorem setPC_flagC (a : Addr) (s : State) : (setPC a s).flagC = s.flagC := rfl
@[simp] theorem setPC_mem (a : Addr) (s : State) : (setPC a s).mem = s.mem := rfl
@[simp] theorem setPC_irqLine (a : Addr) (s : State) : (setPC a s).irqLine = s.irqLine := rfl
@[simp] theorem setPC_nmiPending (a : Addr) (s : State) : (setPC a s).nmiPending = s.nmiPending := rfl
@[simp] theorem setPC_iPoll (a : Addr) (s : State) : (setPC a s).iPoll = s.iPoll := rfl
@[simp] theorem setPC_resetLine (a : Addr) (s : State) : (setPC a s).resetLine = s.resetLine := rfl
@[simp] theorem setPC_faultMark (a : Addr) (s : State) : (setPC a s).faultMark = s.faultMark := rfl
@[simp] theorem setPC_draws (a : Addr) (s : State) : (setPC a s).draws = s.draws := rfl
@[simp] theorem setPC_params (a : Addr) (s : State) : (setPC a s).params = s.params := rfl
@[simp] theorem byteAt_setPC (a : Addr) (s : State) (addr : Addr) : byteAt (setPC a s) addr = byteAt s addr := rfl
@[simp] theorem isPlain_setPC (a : Addr) (s : State) (addr : Addr) : (setPC a s).isPlain addr = s.isPlain addr := rfl
@[simp] theorem isRam_setPC (a : Addr) (s : State) (addr : Addr) : (setPC a s).isRam addr = s.isRam addr := rfl

/-! ### `advance` -/

@[simp] theorem advance_regA (len : Nat) (s : State) : (advance len s).regA = s.regA := rfl
@[simp] theorem advance_regX (len : Nat) (s : State) : (advance len s).regX = s.regX := rfl
@[simp] theorem advance_regY (len : Nat) (s : State) : (advance len s).regY = s.regY := rfl
@[simp] theorem advance_regS (len : Nat) (s : State) : (advance len s).regS = s.regS := rfl
@[simp] theorem advance_pc (len : Nat) (s : State) : (advance len s).pc = s.pc + BitVec.ofNat 16 len := rfl
@[simp] theorem advance_flagN (len : Nat) (s : State) : (advance len s).flagN = s.flagN := rfl
@[simp] theorem advance_flagV (len : Nat) (s : State) : (advance len s).flagV = s.flagV := rfl
@[simp] theorem advance_flagD (len : Nat) (s : State) : (advance len s).flagD = s.flagD := rfl
@[simp] theorem advance_flagI (len : Nat) (s : State) : (advance len s).flagI = s.flagI := rfl
@[simp] theorem advance_flagZ (len : Nat) (s : State) : (advance len s).flagZ = s.flagZ := rfl
@[simp] theorem advance_flagC (len : Nat) (s : State) : (advance len s).flagC = s.flagC := rfl
@[simp] theorem advance_mem (len : Nat) (s : State) : (advance len s).mem = s.mem := rfl
@[simp] theorem advance_irqLine (len : Nat) (s : State) : (advance len s).irqLine = s.irqLine := rfl
@[simp] theorem advance_nmiPending (len : Nat) (s : State) : (advance len s).nmiPending = s.nmiPending := rfl
@[simp] theorem advance_iPoll (len : Nat) (s : State) : (advance len s).iPoll = s.iPoll := rfl
@[simp] theorem advance_resetLine (len : Nat) (s : State) : (advance len s).resetLine = s.resetLine := rfl
@[simp] theorem advance_faultMark (len : Nat) (s : State) : (advance len s).faultMark = s.faultMark := rfl
@[simp] theorem advance_draws (len : Nat) (s : State) : (advance len s).draws = s.draws := rfl
@[simp] theorem advance_params (len : Nat) (s : State) : (advance len s).params = s.params := rfl
@[simp] theorem byteAt_advance (len : Nat) (s : State) (addr : Addr) : byteAt (advance len s) addr = byteAt s addr := rfl
@[simp] theorem isPlain_advance (len : Nat) (s : State) (addr : Addr) : (advance len s).isPlain addr = s.isPlain addr := rfl
@[simp] theorem isRam_advance (len : Nat) (s : State) (addr : Addr) : (advance len s).isRam addr = s.isRam addr := rfl

/-! ### `setC` -/

@[simp] theorem setC_regA (b : Bool) (s : State) : (setC b s).regA = s.regA := rfl
@[simp] theorem setC_regX (b : Bool) (s : State) : (setC b s).regX = s.regX := rfl
@[simp] theorem setC_regY (b : Bool) (s : State) : (setC b s).regY = s.regY := rfl
@[simp] theorem setC_regS (b : Bool) (s : State) : (setC b s).regS = s.regS := rfl
@[simp] theorem setC_pc (b : Bool) (s : State) : (setC b s).pc = s.pc := rfl
@[simp] theorem setC_flagN (b : Bool) (s : State) : (setC b s).flagN = s.flagN := rfl
@[simp] theorem setC_flagV (b : Bool) (s : State) : (setC b s).flagV = s.flagV := rfl
@[simp] theorem setC_flagD (b : Bool) (s : State) : (setC b s).flagD = s.flagD := rfl
@[simp] theorem setC_flagI (b : Bool) (s : State) : (setC b s).flagI = s.flagI := rfl
@[simp] theorem setC_flagZ (b : Bool) (s : State) : (setC b s).flagZ = s.flagZ := rfl
@[simp] theorem setC_flagC (b : Bool) (s : State) : (setC b s).flagC = b := rfl
@[simp] theorem setC_mem (b : Bool) (s : State) : (setC b s).mem = s.mem := rfl
@[simp] theorem setC_irqLine (b : Bool) (s : State) : (setC b s).irqLine = s.irqLine := rfl
@[simp] theorem setC_nmiPending (b : Bool) (s : State) : (setC b s).nmiPending = s.nmiPending := rfl
@[simp] theorem setC_iPoll (b : Bool) (s : State) : (setC b s).iPoll = s.iPoll := rfl
@[simp] theorem setC_resetLine (b : Bool) (s : State) : (setC b s).resetLine = s.resetLine := rfl
@[simp] theorem setC_faultMark (b : Bool) (s : State) : (setC b s).faultMark = s.faultMark := rfl
@[simp] theorem setC_draws (b : Bool) (s : State) : (setC b s).draws = s.draws := rfl
@[simp] theorem setC_params (b : Bool) (s : State) : (setC b s).params = s.params := rfl
@[simp] theorem byteAt_setC (b : Bool) (s : State) (addr : Addr) : byteAt (setC b s) addr = byteAt s addr := rfl
@[simp] theorem isPlain_setC (b : Bool) (s : State) (addr : Addr) : (setC b s).isPlain addr = s.isPlain addr := rfl
@[simp] theorem isRam_setC (b : Bool) (s : State) (addr : Addr) : (setC b s).isRam addr = s.isRam addr := rfl

/-! ### `setD` -/

@[simp] theorem setD_regA (b : Bool) (s : State) : (setD b s).regA = s.regA := rfl
@[simp] theorem setD_regX (b : Bool) (s : State) : (setD b s).regX = s.regX := rfl
@[simp] theorem setD_regY (b : Bool) (s : State) : (setD b s).regY = s.regY := rfl
@[simp] theorem setD_regS (b : Bool) (s : State) : (setD b s).regS = s.regS := rfl
@[simp] theorem setD_pc (b : Bool) (s : State) : (setD b s).pc = s.pc := rfl
@[simp] theorem setD_flagN (b : Bool) (s : State) : (setD b s).flagN = s.flagN := rfl
@[simp] theorem setD_flagV (b : Bool) (s : State) : (setD b s).flagV = s.flagV := rfl
@[simp] theorem setD_flagD (b : Bool) (s : State) : (setD b s).flagD = b := rfl
@[simp] theorem setD_flagI (b : Bool) (s : State) : (setD b s).flagI = s.flagI := rfl
@[simp] theorem setD_flagZ (b : Bool) (s : State) : (setD b s).flagZ = s.flagZ := rfl
@[simp] theorem setD_flagC (b : Bool) (s : State) : (setD b s).flagC = s.flagC := rfl
@[simp] theorem setD_mem (b : Bool) (s : State) : (setD b s).mem = s.mem := rfl
@[simp] theorem setD_irqLine (b : Bool) (s : State) : (setD b s).irqLine = s.irqLine := rfl
@[simp] theorem setD_nmiPending (b : Bool) (s : State) : (setD b s).nmiPending = s.nmiPending := rfl
@[simp] theorem setD_iPoll (b : Bool) (s : State) : (setD b s).iPoll = s.iPoll := rfl
@[simp] theorem setD_resetLine (b : Bool) (s : State) : (setD b s).resetLine = s.resetLine := rfl
@[simp] theorem setD_faultMark (b : Bool) (s : State) : (setD b s).faultMark = s.faultMark := rfl
@[simp] theorem setD_draws (b : Bool) (s : State) : (setD b s).draws = s.draws := rfl
@[simp] theorem setD_params (b : Bool) (s : State) : (setD b s).params = s.params := rfl
@[simp] theorem byteAt_setD (b : Bool) (s : State) (addr : Addr) : byteAt (setD b s) addr = byteAt s addr := rfl
@[simp] theorem isPlain_setD (b : Bool) (s : State) (addr : Addr) : (setD b s).isPlain addr = s.isPlain addr := rfl
@[simp] theorem isRam_setD (b : Bool) (s : State) (addr : Addr) : (setD b s).isRam addr = s.isRam addr := rfl

/-! ### `setV` -/

@[simp] theorem setV_regA (b : Bool) (s : State) : (setV b s).regA = s.regA := rfl
@[simp] theorem setV_regX (b : Bool) (s : State) : (setV b s).regX = s.regX := rfl
@[simp] theorem setV_regY (b : Bool) (s : State) : (setV b s).regY = s.regY := rfl
@[simp] theorem setV_regS (b : Bool) (s : State) : (setV b s).regS = s.regS := rfl
@[simp] theorem setV_pc (b : Bool) (s : State) : (setV b s).pc = s.pc := rfl
@[simp] theorem setV_flagN (b : Bool) (s : State) : (setV b s).flagN = s.flagN := rfl
@[simp] theorem setV_flagV (b : Bool) (s : State) : (setV b s).flagV = b := rfl
@[simp] theorem setV_flagD (b : Bool) (s : State) : (setV b s).flagD = s.flagD := rfl
@[simp] theorem setV_flagI (b : Bool) (s : State) : (setV b s).flagI = s.flagI := rfl
@[simp] theorem setV_flagZ (b : Bool) (s : State) : (setV b s).flagZ = s.flagZ := rfl
@[simp] theorem setV_flagC (b : Bool) (s : State) : (setV b s).flagC = s.flagC := rfl
@[simp] theorem setV_mem (b : Bool) (s : State) : (setV b s).mem = s.mem := rfl
@[simp] theorem setV_irqLine (b : Bool) (s : State) : (setV b s).irqLine = s.irqLine := rfl
@[simp] theorem setV_nmiPending (b : Bool) (s : State) : (setV b s).nmiPending = s.nmiPending := rfl
@[simp] theorem setV_iPoll (b : Bool) (s : State) : (setV b s).iPoll = s.iPoll := rfl
@[simp] theorem setV_resetLine (b : Bool) (s : State) : (setV b s).resetLine = s.resetLine := rfl
@[simp] theorem setV_faultMark (b : Bool) (s : State) : (setV b s).faultMark = s.faultMark := rfl
@[simp] theorem setV_draws (b : Bool) (s : State) : (setV b s).draws = s.draws := rfl
@[simp] theorem setV_params (b : Bool) (s : State) : (setV b s).params = s.params := rfl
@[simp] theorem byteAt_setV (b : Bool) (s : State) (addr : Addr) : byteAt (setV b s) addr = byteAt s addr := rfl
@[simp] theorem isPlain_setV (b : Bool) (s : State) (addr : Addr) : (setV b s).isPlain addr = s.isPlain addr := rfl
@[simp] theorem isRam_setV (b : Bool) (s : State) (addr : Addr) : (setV b s).isRam addr = s.isRam addr := rfl

/-! ### `setI` -/

@[simp] theorem setI_regA (b : Bool) (s : State) : (setI b s).regA = s.regA := rfl
@[simp] theorem setI_regX (b : Bool) (s : State) : (setI b s).regX = s.regX := rfl
@[simp] theorem setI_regY (b : Bool) (s : State) : (setI b s).regY = s.regY := rfl
@[simp] theorem setI_regS (b : Bool) (s : State) : (setI b s).regS = s.regS := rfl
@[simp] theorem setI_pc (b : Bool) (s : State) : (setI b s).pc = s.pc := rfl
@[simp] theorem setI_flagN (b : Bool) (s : State) : (setI b s).flagN = s.flagN := rfl
@[simp] theorem setI_flagV (b : Bool) (s : State) : (setI b s).flagV = s.flagV := rfl
@[simp] theorem setI_flagD (b : Bool) (s : State) : (setI b s).flagD = s.flagD := rfl
@[simp] theorem setI_flagI (b : Bool) (s : State) : (setI b s).flagI = b := rfl
@[simp] theorem setI_flagZ (b : Bool) (s : State) : (setI b s).flagZ = s.flagZ := rfl
@[simp] theorem setI_flagC (b : Bool) (s : State) : (setI b s).flagC = s.flagC := rfl
@[simp] theorem setI_mem (b : Bool) (s : State) : (setI b s).mem = s.mem := rfl
@[simp] theorem setI_irqLine (b : Bool) (s : State) : (setI b s).irqLine = s.irqLine := rfl
@[simp] theorem setI_nmiPending (b : Bool) (s : State) : (setI b s).nmiPending = s.nmiPending := rfl
@[simp] theorem setI_iPoll (b : Bool) (s : State) : (setI b s).iPoll = s.iPoll := rfl
@[simp] theorem setI_resetLine (b : Bool) (s : State) : (setI b s).resetLine = s.resetLine := rfl
@[simp] theorem setI_faultMark (b : Bool) (s : State) : (setI b s).faultMark = s.faultMark := rfl
@[simp] theorem setI_draws (b : Bool) (s : State) : (setI b s).draws = s.draws := rfl
@[simp] theorem setI_params (b : Bool) (s : State) : (setI b s).params = s.params := rfl
@[simp] theorem byteAt_setI (b : Bool) (s : State) (addr : Addr) : byteAt (setI b s) addr = byteAt s addr := rfl
@[simp] theorem isPlain_setI (b : Bool) (s : State) (addr : Addr) : (setI b s).isPlain addr = s.isPlain addr := rfl
@[simp] theorem isRam_setI (b : Bool) (s : State) (addr : Addr) : (setI b s).isRam addr = s.isRam addr := rfl

/-! ### `clearDOnEntry` -/

@[simp] theorem clearDOnEntry_regA (s : State) : (clearDOnEntry s).regA = s.regA := rfl
@[simp] theorem clearDOnEntry_regX (s : State) : (clearDOnEntry s).regX = s.regX := rfl
@[simp] theorem clearDOnEntry_regY (s : State) : (clearDOnEntry s).regY = s.regY := rfl
@[simp] theorem clearDOnEntry_regS (s : State) : (clearDOnEntry s).regS = s.regS := rfl
@[simp] theorem clearDOnEntry_pc (s : State) : (clearDOnEntry s).pc = s.pc := rfl
@[simp] theorem clearDOnEntry_flagN (s : State) : (clearDOnEntry s).flagN = s.flagN := rfl
@[simp] theorem clearDOnEntry_flagV (s : State) : (clearDOnEntry s).flagV = s.flagV := rfl
@[simp] theorem clearDOnEntry_flagD (s : State) : (clearDOnEntry s).flagD = if s.params.intClearsD then false else s.flagD := rfl
@[simp] theorem clearDOnEntry_flagI (s : State) : (clearDOnEntry s).flagI = s.flagI := rfl
@[simp] theorem clearDOnEntry_flagZ (s : State) : (clearDOnEntry s).flagZ = s.flagZ := rfl
@[simp] theorem clearDOnEntry_flagC (s : State) : (clearDOnEntry s).flagC = s.flagC := rfl
@[simp] theorem clearDOnEntry_mem (s : State) : (clearDOnEntry s).mem = s.mem := rfl
@[simp] theorem clearDOnEntry_irqLine (s : State) : (clearDOnEntry s).irqLine = s.irqLine := rfl
@[simp] theorem clearDOnEntry_nmiPending (s : State) : (clearDOnEntry s).nmiPending = s.nmiPending := rfl
@[simp] theorem clearDOnEntry_iPoll (s : State) : (clearDOnEntry s).iPoll = s.iPoll := rfl
@[simp] theorem clearDOnEntry_resetLine (s : State) : (clearDOnEntry s).resetLine = s.resetLine := rfl
@[simp] theorem clearDOnEntry_faultMark (s : State) : (clearDOnEntry s).faultMark = s.faultMark := rfl
@[simp] theorem clearDOnEntry_draws (s : State) : (clearDOnEntry s).draws = s.draws := rfl
@[simp] theorem clearDOnEntry_params (s : State) : (clearDOnEntry s).params = s.params := rfl
@[simp] theorem byteAt_clearDOnEntry (s : State) (addr : Addr) : byteAt (clearDOnEntry s) addr = byteAt s addr := rfl
@[simp] theorem isPlain_clearDOnEntry (s : State) (addr : Addr) : (clearDOnEntry s).isPlain addr = s.isPlain addr := rfl
@[simp] theorem isRam_clearDOnEntry (s : State) (addr : Addr) : (clearDOnEntry s).isRam addr = s.isRam addr := rfl

/-! ### `setPoll` -/

@[simp] theorem setPoll_regA (b : Bool) (s : State) : (setPoll b s).regA = s.regA := rfl
@[simp] theorem setPoll_regX (b : Bool) (s : State) : (setPoll b s).regX = s.regX := rfl
@[simp] theorem setPoll_regY (b : Bool) (s : State) : (setPoll b s).regY = s.regY := rfl
@[simp] theorem setPoll_regS (b : Bool) (s : State) : (setPoll b s).regS = s.regS := rfl
@[simp] theorem setPoll_pc (b : Bool) (s : State) : (setPoll b s).pc = s.pc := rfl
@[simp] theorem setPoll_flagN (b : Bool) (s : State) : (setPoll b s).flagN = s.flagN := rfl
@[simp] theorem setPoll_flagV (b : Bool) (s : State) : (setPoll b s).flagV = s.flagV := rfl
@[simp] theorem setPoll_flagD (b : Bool) (s : State) : (setPoll b s).flagD = s.flagD := rfl
@[simp] theorem setPoll_flagI (b : Bool) (s : State) : (setPoll b s).flagI = s.flagI := rfl
@[simp] theorem setPoll_flagZ (b : Bool) (s : State) : (setPoll b s).flagZ = s.flagZ := rfl
@[simp] theorem setPoll_flagC (b : Bool) (s : State) : (setPoll b s).flagC = s.flagC := rfl
@[simp] theorem setPoll_mem (b : Bool) (s : State) : (setPoll b s).mem = s.mem := rfl
@[simp] theorem setPoll_irqLine (b : Bool) (s : State) : (setPoll b s).irqLine = s.irqLine := rfl
@[simp] theorem setPoll_nmiPending (b : Bool) (s : State) : (setPoll b s).nmiPending = s.nmiPending := rfl
@[simp] theorem setPoll_iPoll (b : Bool) (s : State) : (setPoll b s).iPoll = if s.params.hwInterrupts then b else s.iPoll := rfl
@[simp] theorem setPoll_resetLine (b : Bool) (s : State) : (setPoll b s).resetLine = s.resetLine := rfl
@[simp] theorem setPoll_faultMark (b : Bool) (s : State) : (setPoll b s).faultMark = s.faultMark := rfl
@[simp] theorem setPoll_draws (b : Bool) (s : State) : (setPoll b s).draws = s.draws := rfl
@[simp] theorem setPoll_params (b : Bool) (s : State) : (setPoll b s).params = s.params := rfl
@[simp] theorem byteAt_setPoll (b : Bool) (s : State) (addr : Addr) : byteAt (setPoll b s) addr = byteAt s addr := rfl
@[simp] theorem isPlain_setPoll (b : Bool) (s : State) (addr : Addr) : (setPoll b s).isPlain addr = s.isPlain addr := rfl
@[simp] theorem isRam_setPoll (b : Bool) (s : State) (addr : Addr) : (setPoll b s).isRam addr = s.isRam addr := rfl

/-! ### `setNZ` -/

@[simp] theorem setNZ_regA (v : Byte) (s : State) : (setNZ v s).regA = s.regA := rfl
@[simp] theorem setNZ_regX (v : Byte) (s : State) : (setNZ v s).regX = s.regX := rfl
@[simp] theorem setNZ_regY (v : Byte) (s : State) : (setNZ v s).regY = s.regY := rfl
@[simp] theorem setNZ_regS (v : Byte) (s : State) : (setNZ v s).regS = s.regS := rfl
@[simp] theorem setNZ_pc (v : Byte) (s : State) : (setNZ v s).pc = s.pc := rfl
@[simp] theorem setNZ_flagN (v : Byte) (s : State) : (setNZ v s).flagN = v.getLsbD 7 := rfl
@[simp] theorem setNZ_flagV (v : Byte) (s : State) : (setNZ v s).flagV = s.flagV := rfl
@[simp] theorem setNZ_flagD (v : Byte) (s : State) : (setNZ v s).flagD = s.flagD := rfl
@[simp] theorem setNZ_flagI (v : Byte) (s : State) : (setNZ v s).flagI = s.flagI := rfl
@[simp] theorem setNZ_flagZ (v : Byte) (s : State) : (setNZ v s).flagZ = (v == 0) := rfl
@[simp] theorem setNZ_flagC (v : Byte) (s : State) : (setNZ v s).flagC = s.flagC := rfl
@[simp] theorem setNZ_mem (v : Byte) (s : State) : (setNZ v s).mem = s.mem := rfl
@[simp] theorem setNZ_irqLine (v : Byte) (s : State) : (setNZ v s).irqLine = s.irqLine := rfl
@[simp] theorem setNZ_nmiPending (v : Byte) (s : State) : (setNZ v s).nmiPending = s.nmiPending := rfl
@[simp] theorem setNZ_iPoll (v : Byte) (s : State) : (setNZ v s).iPoll = s.iPoll := rfl
@[simp] theorem setNZ_resetLine (v : Byte) (s : State) : (setNZ v s).resetLine = s.resetLine := rfl
@[simp] theorem setNZ_faultMark (v : Byte) (s : State) : (setNZ v s).faultMark = s.faultMark := rfl
@[simp] theorem setNZ_draws (v : Byte) (s : State) : (setNZ v s).draws = s.draws := rfl
@[simp] theorem setNZ_params (v : Byte) (s : State) : (setNZ v s).params = s.params := rfl
@[simp] theorem byteAt_setNZ (v : Byte) (s : State) (addr : Addr) : byteAt (setNZ v s) addr = byteAt s addr := rfl
@[simp] theorem isPlain_setNZ (v : Byte) (s : State) (addr : Addr) : (setNZ v s).isPlain addr = s.isPlain addr := rfl
@[simp] theorem isRam_setNZ (v : Byte) (s : State) (addr : Addr) : (setNZ v s).isRam addr = s.isRam addr := rfl

/-! ### `unpackP` -/

@[simp] theorem unpackP_regA (v : Byte) (s : State) : (unpackP v s).regA = s.regA := rfl
@[simp] theorem unpackP_regX (v : Byte) (s : State) : (unpackP v s).regX = s.regX := rfl
@[simp] theorem unpackP_regY (v : Byte) (s : State) : (unpackP v s).regY = s.regY := rfl
@[simp] theorem unpackP_regS (v : Byte) (s : State) : (unpackP v s).regS = s.regS := rfl
@[simp] theorem unpackP_pc (v : Byte) (s : State) : (unpackP v s).pc = s.pc := rfl
@[simp] theorem unpackP_flagN (v : Byte) (s : State) : (unpackP v s).flagN = v.getLsbD 7 := rfl
@[simp] theorem unpackP_flagV (v : Byte) (s : State) : (unpackP v s).flagV = v.getLsbD 6 := rfl
@[simp] theorem unpackP_flagD (v : Byte) (s : State) : (unpackP v s).flagD = v.getLsbD 3 := rfl
@[simp] theorem unpackP_flagI (v : Byte) (s : State) : (unpackP v s).flagI = v.getLsbD 2 := rfl
@[simp] theorem unpackP_flagZ (v : Byte) (s : State) : (unpackP v s).flagZ = v.getLsbD 1 := rfl
@[simp] theorem unpackP_flagC (v : Byte) (s : State) : (unpackP v s).flagC = v.getLsbD 0 := rfl
@[simp] theorem unpackP_mem (v : Byte) (s : State) : (unpackP v s).mem = s.mem := rfl
@[simp] theorem unpackP_irqLine (v : Byte) (s : State) : (unpackP v s).irqLine = s.irqLine := rfl
@[simp] theorem unpackP_nmiPending (v : Byte) (s : State) : (unpackP v s).nmiPending = s.nmiPending := rfl
@[simp] theorem unpackP_iPoll (v : Byte) (s : State) : (unpackP v s).iPoll = s.iPoll := rfl
@[simp] theorem unpackP_resetLine (v : Byte) (s : State) : (unpackP v s).resetLine = s.resetLine := rfl
@[simp] theorem unpackP_faultMark (v : Byte) (s : State) : (unpackP v s).faultMark = s.faultMark := rfl
@[simp] theorem unpackP_draws (v : Byte) (s : State) : (unpackP v s).draws = s.draws := rfl
@[simp] theorem unpackP_params (v : Byte) (s : State) : (unpackP v s).params = s.params := rfl
@[simp] theorem byteAt_unpackP (v : Byte) (s : State) (addr : Addr) : byteAt (unpackP v s) addr = byteAt s addr := rfl
@[simp] theorem isPlain_unpackP (v : Byte) (s : State) (addr : Addr) : (unpackP v s).isPlain addr = s.isPlain addr := rfl
@[simp] theorem isRam_unpackP (v : Byte) (s : State) (addr : Addr) : (unpackP v s).isRam addr = s.isRam addr := rfl

/-! ### `compareWith` -/

@[simp] theorem compareWith_regA (r m : Byte) (s : State) : (compareWith r m s).regA = s.regA := rfl
@[simp] theorem compareWith_regX (r m : Byte) (s : State) : (compareWith r m s).regX = s.regX := rfl
@[simp] theorem compareWith_regY (r m : Byte) (s : State) : (compareWith r m s).regY = s.regY := rfl
@[simp] theorem compareWith_regS (r m : Byte) (s : State) : (compareWith r m s).regS = s.regS := rfl
@[simp] theorem compareWith_pc (r m : Byte) (s : State) : (compareWith r m s).pc = s.pc := rfl
@[simp] theorem compareWith_flagN (r m : Byte) (s : State) : (compareWith r m s).flagN = (r - m).getLsbD 7 := rfl
@[simp] theorem compareWith_flagV (r m : Byte) (s : State) : (compareWith r m s).flagV = s.flagV := rfl
@[simp] theorem compareWith_flagD (r m : Byte) (s : State) : (compareWith r m s).flagD = s.flagD := rfl
@[simp] theorem compareWith_flagI (r m : Byte) (s : State) : (compareWith r m s).flagI = s.flagI := rfl
@[simp] theorem compareWith_flagZ (r m : Byte) (s : State) : (compareWith r m s).flagZ = (r == m) := rfl
@[simp] theorem compareWith_flagC (r m : Byte) (s : State) : (compareWith r m s).flagC = decide (m.toNat ≤ r.toNat) := rfl
@[simp] theorem compareWith_mem (r m : Byte) (s : State) : (compareWith r m s).mem = s.mem := rfl
@[simp] theorem compareWith_irqLine (r m : Byte) (s : State) : (compareWith r m s).irqLine = s.irqLine := rfl
@[simp] theorem compareWith_nmiPending (r m : Byte) (s : State) : (compareWith r m s).nmiPending = s.nmiPending := rfl
@[simp] theorem compareWith_iPoll (r m : Byte) (s : State) : (compareWith r m s).iPoll = s.iPoll := rfl
@[simp] theorem compareWith_resetLine (r m : Byte) (s : State) : (compareWith r m s).resetLine = s.resetLine := rfl
@[simp] theorem compareWith_faultMark (r m : Byte) (s : State) : (compareWith r m s).faultMark = s.faultMark := rfl
@[simp] theorem compareWith_draws (r m : Byte) (s : State) : (compareWith r m s).draws = s.draws := rfl
@[simp] theorem compareWith_params (r m : Byte) (s : State) : (compareWith r m s).params = s.params := rfl
@[simp] theorem byteAt_compareWith (r m : Byte) (s : State) (addr : Addr) : byteAt (compareWith r m s) addr = byteAt s addr := rfl
@[simp] theorem isPlain_compareWith (r m : Byte) (s : State) (addr : Addr) : (compareWith r m s).isPlain addr = s.isPlain addr := rfl
@[simp] theorem isRam_compareWith (r m : Byte) (s : State) (addr : Addr) : (compareWith r m s).isRam addr = s.isRam addr := rfl

/-! ### `testBits` -/

@[simp] theorem testBits_regA (w : Bool) (m : Byte) (s : State) : (testBits w m s).regA = s.regA := rfl
@[simp] theorem testBits_regX (w : Bool) (m : Byte) (s : State) : (testBits w m s).regX = s.regX := rfl
@[simp] theorem testBits_regY (w : Bool) (m : Byte) (s : State) : (testBits w m s).regY = s.regY := rfl
@[simp] theorem testBits_regS (w : Bool) (m : Byte) (s : State) : (testBits w m s).regS = s.regS := rfl
@[simp] theorem testBits_pc (w : Bool) (m : Byte) (s : State) : (testBits w m s).pc = s.pc := rfl
@[simp] theorem testBits_flagN (w : Bool) (m : Byte) (s : State) : (testBits w m s).flagN = if w then m.getLsbD 7 else s.flagN := rfl
@[simp] theorem testBits_flagV (w : Bool) (m : Byte) (s : State) : (testBits w m s).flagV = if w then m.getLsbD 6 else s.flagV := rfl
@[simp] theorem testBits_flagD (w : Bool) (m : Byte) (s : State) : (testBits w m s).flagD = s.flagD := rfl
@[simp] theorem testBits_flagI (w : Bool) (m : Byte) (s : State) : (testBits w m s).flagI = s.flagI := rfl
@[simp] theorem testBits_flagZ (w : Bool) (m : Byte) (s : State) : (testBits w m s).flagZ = ((s.regA &&& m) == 0) := rfl
@[simp] theorem testBits_flagC (w : Bool) (m : Byte) (s : State) : (testBits w m s).flagC = s.flagC := rfl
@[simp] theorem testBits_mem (w : Bool) (m : Byte) (s : State) : (testBits w m s).mem = s.mem := rfl
@[simp] theorem testBits_irqLine (w : Bool) (m : Byte) (s : State) : (testBits w m s).irqLine = s.irqLine := rfl
@[simp] theorem testBits_nmiPending (w : Bool) (m : Byte) (s : State) : (testBits w m s).nmiPending = s.nmiPending := rfl
@[simp] theorem testBits_iPoll (w : Bool) (m : Byte) (s : State) : (testBits w m s).iPoll = s.iPoll := rfl
@[simp] theorem testBits_resetLine (w : Bool) (m : Byte) (s : State) : (testBits w m s).resetLine = s.resetLine := rfl
@[simp] theorem testBits_faultMark (w : Bool) (m : Byte) (s : State) : (testBits w m s).faultMark = s.faultMark := rfl
@[simp] theorem testBits_draws (w : Bool) (m : Byte) (s : State) : (testBits w m s).draws = s.draws := rfl
@[simp] theorem testBits_params (w : Bool) (m : Byte) (s : State) : (testBits w m s).params = s.params := rfl
@[simp] theorem byteAt_testBits (w : Bool) (m : Byte) (s : State) (addr : Addr) : byteAt (testBits w m s) addr = byteAt s addr := rfl
@[simp] theorem isPlain_testBits (w : Bool) (m : Byte) (s : State) (addr : Addr) : (testBits w m s).isPlain addr = s.isPlain addr := rfl
@[simp] theorem isRam_testBits (w : Bool) (m : Byte) (s : State) (addr : Addr) : (testBits w m s).isRam addr = s.isRam addr := rfl

/-! ### `drawNVZ` -/

@[simp] theorem drawNVZ_regA (s : State) : (drawNVZ s).regA = s.regA := rfl
@[simp] theorem drawNVZ_regX (s : State) : (drawNVZ s).regX = s.regX := rfl
@[simp] theorem drawNVZ_regY (s : State) : (drawNVZ s).regY = s.regY := rfl
@[simp] theorem drawNVZ_regS (s : State) : (drawNVZ s).regS = s.regS := rfl
@[simp] theorem drawNVZ_pc (s : State) : (drawNVZ s).pc = s.pc := rfl
@[simp] theorem drawNVZ_flagN (s : State) : (drawNVZ s).flagN = Config.freeBit s.draws := rfl
@[simp] theorem drawNVZ_flagV (s : State) : (drawNVZ s).flagV = Config.freeBit (s.draws + 1) := rfl
@[simp] theorem drawNVZ_flagD (s : State) : (drawNVZ s).flagD = s.flagD := rfl
@[simp] theorem drawNVZ_flagI (s : State) : (drawNVZ s).flagI = s.flagI := rfl
@[simp] theorem drawNVZ_flagZ (s : State) : (drawNVZ s).flagZ = Config.freeBit (s.draws + 2) := rfl
@[simp] theorem drawNVZ_flagC (s : State) : (drawNVZ s).flagC = s.flagC := rfl
@[simp] theorem drawNVZ_mem (s : State) : (drawNVZ s).mem = s.mem := rfl
@[simp] theorem drawNVZ_irqLine (s : State) : (drawNVZ s).irqLine = s.irqLine := rfl
@[simp] theorem drawNVZ_nmiPending (s : State) : (drawNVZ s).nmiPending = s.nmiPending := rfl
@[simp] theorem drawNVZ_iPoll (s : State) : (drawNVZ s).iPoll = s.iPoll := rfl
@[simp] theorem drawNVZ_resetLine (s : State) : (drawNVZ s).resetLine = s.resetLine := rfl
@[simp] theorem drawNVZ_faultMark (s : State) : (drawNVZ s).faultMark = s.faultMark := rfl
@[simp] theorem drawNVZ_draws (s : State) : (drawNVZ s).draws = s.draws + 3 := rfl
@[simp] theorem drawNVZ_params (s : State) : (drawNVZ s).params = s.params := rfl
@[simp] theorem byteAt_drawNVZ (s : State) (addr : Addr) : byteAt (drawNVZ s) addr = byteAt s addr := rfl
@[simp] theorem isPlain_drawNVZ (s : State) (addr : Addr) : (drawNVZ s).isPlain addr = s.isPlain addr := rfl
@[simp] theorem isRam_drawNVZ (s : State) (addr : Addr) : (drawNVZ s).isRam addr = s.isRam addr := rfl

/-! ### `addBinary` -/

@[simp] theorem addBinary_regA (m : Byte) (s : State) : (addBinary m s).regA = binaryResult s.regA m s.flagC := rfl
@[simp] theorem addBinary_regX (m : Byte) (s : State) : (addBinary m s).regX = s.regX := rfl
@[simp] theorem addBinary_regY (m : Byte) (s : State) : (addBinary m s).regY = s.regY := rfl
@[simp] theorem addBinary_regS (m : Byte) (s : State) : (addBinary m s).regS = s.regS := rfl
@[simp] theorem addBinary_pc (m : Byte) (s : State) : (addBinary m s).pc = s.pc := rfl
@[simp] theorem addBinary_flagN (m : Byte) (s : State) : (addBinary m s).flagN = (binaryResult s.regA m s.flagC).getLsbD 7 := rfl
@[simp] theorem addBinary_flagV (m : Byte) (s : State) : (addBinary m s).flagV = binaryOverflow s.regA m s.flagC := rfl
@[simp] theorem addBinary_flagD (m : Byte) (s : State) : (addBinary m s).flagD = s.flagD := rfl
@[simp] theorem addBinary_flagI (m : Byte) (s : State) : (addBinary m s).flagI = s.flagI := rfl
@[simp] theorem addBinary_flagZ (m : Byte) (s : State) : (addBinary m s).flagZ = (binaryResult s.regA m s.flagC == 0) := rfl
@[simp] theorem addBinary_flagC (m : Byte) (s : State) : (addBinary m s).flagC = binaryCarry s.regA m s.flagC := rfl
@[simp] theorem addBinary_mem (m : Byte) (s : State) : (addBinary m s).mem = s.mem := rfl
@[simp] theorem addBinary_irqLine (m : Byte) (s : State) : (addBinary m s).irqLine = s.irqLine := rfl
@[simp] theorem addBinary_nmiPending (m : Byte) (s : State) : (addBinary m s).nmiPending = s.nmiPending := rfl
@[simp] theorem addBinary_iPoll (m : Byte) (s : State) : (addBinary m s).iPoll = s.iPoll := rfl
@[simp] theorem addBinary_resetLine (m : Byte) (s : State) : (addBinary m s).resetLine = s.resetLine := rfl
@[simp] theorem addBinary_faultMark (m : Byte) (s : State) : (addBinary m s).faultMark = s.faultMark := rfl
@[simp] theorem addBinary_draws (m : Byte) (s : State) : (addBinary m s).draws = s.draws := rfl
@[simp] theorem addBinary_params (m : Byte) (s : State) : (addBinary m s).params = s.params := rfl
@[simp] theorem byteAt_addBinary (m : Byte) (s : State) (addr : Addr) : byteAt (addBinary m s) addr = byteAt s addr := rfl
@[simp] theorem isPlain_addBinary (m : Byte) (s : State) (addr : Addr) : (addBinary m s).isPlain addr = s.isPlain addr := rfl
@[simp] theorem isRam_addBinary (m : Byte) (s : State) (addr : Addr) : (addBinary m s).isRam addr = s.isRam addr := rfl

end Sys2Proof.Machine
end

