-- ==== Sys2Proof/Laws/Memory.lean ====
section
/-! SUPPORT. Memory: reading after writing, the canonical form, and what each memory operation can do. -/

namespace Sys2Proof.Machine

/-! ### Sequencing -/

@[simp] theorem andThen_next {α β : Type} (x : α) (k : α → Result β) : andThen (.next x) k = k x := rfl

@[simp] theorem andThen_fault {α β : Type} (r : Fault) (k : α → Result β) : andThen (.fault r) k = .fault r := rfl

@[simp] theorem andThen_refused {α β : Type} (r : Refusal) (k : α → Result β) : andThen (.refused r) k = .refused r := rfl

theorem andThen_eq_next {α β : Type} {r : Result α} {k : α → Result β} {y : β} :
    andThen r k = .next y ↔ ∃ x, r = .next x ∧ k x = .next y := by
  cases r <;> simp

/-! ### The list of cells -/

theorem cellAt_setCell (m : List Host.Cell) (a : Nat) (v : Byte) (b : Nat) :
    cellAt (setCell m a v) b = if a = b then some v else cellAt m b := by
  induction m with
  | nil => simp [setCell, cellAt]
  | cons e m ih =>
    obtain ⟨k, u⟩ := e
    simp only [setCell]
    split
    · simp [cellAt]
    · split
      · subst k; by_cases h : a = b <;> simp [cellAt, h]
      · by_cases h : a = b
        · subst h; simp [cellAt, ih]; intro h; contradiction
        · simp [cellAt, ih, h]

theorem risingFrom_setCell {m : List Host.Cell} {lo a : Nat} (v : Byte) (hm : risingFrom lo m = true)
    (hlo : lo ≤ a) (ha : a < 65536) : risingFrom lo (setCell m a v) = true := by
  induction m generalizing lo with
  | nil => simp [setCell, risingFrom, hlo, ha]
  | cons e m ih =>
    obtain ⟨k, u⟩ := e
    simp only [risingFrom, Bool.and_eq_true, decide_eq_true_eq] at hm
    obtain ⟨⟨h1, h2⟩, h3⟩ := hm
    simp only [setCell]
    split
    · simp only [risingFrom, Bool.and_eq_true, decide_eq_true_eq]
      exact ⟨⟨hlo, ha⟩, ⟨by omega, h2⟩, h3⟩
    · split
      · subst k
        simp only [risingFrom, Bool.and_eq_true, decide_eq_true_eq]
        exact ⟨⟨hlo, ha⟩, h3⟩
      · simp only [risingFrom, Bool.and_eq_true, decide_eq_true_eq]
        exact ⟨⟨h1, h2⟩, ih h3 (by omega)⟩

/-- Writing at a 16-bit address keeps the canonical form. -/
theorem Memory.wf_setCell {m : List Host.Cell} (hm : Memory.wf m) (a : Addr) (v : Byte) :
    Memory.wf (setCell m a.toNat v) :=
  risingFrom_setCell v hm (Nat.zero_le _) a.isLt

theorem cellAt_below {m : List Host.Cell} {lo a : Nat} (hm : risingFrom lo m = true) (ha : a < lo) :
    cellAt m a = none := by
  induction m generalizing lo with
  | nil => rfl
  | cons e m ih =>
    obtain ⟨k, u⟩ := e
    simp only [risingFrom, Bool.and_eq_true, decide_eq_true_eq] at hm
    have hk : k ≠ a := by omega
    simp only [cellAt, hk, if_false]
    exact ih hm.2 (by omega)

/-- Two memories in canonical form with the same bytes are the same data. -/
theorem risingFrom_ext {m n : List Host.Cell} {lo lo' : Nat} (hm : risingFrom lo m = true) (hn : risingFrom lo' n = true)
    (h : ∀ a, cellAt m a = cellAt n a) : m = n := by
  induction m generalizing lo lo' n with
  | nil =>
    cases n with
    | nil => rfl
    | cons e n => have := h e.1; simp [cellAt] at this
  | cons e m ih =>
    obtain ⟨k, u⟩ := e
    cases n with
    | nil => have := h k; simp [cellAt] at this
    | cons e' n =>
      obtain ⟨k', u'⟩ := e'
      simp only [risingFrom, Bool.and_eq_true, decide_eq_true_eq] at hm hn
      have hk : k = k' := by
        rcases Nat.lt_trichotomy k k' with hlt | heq | hgt
        · have h1 := h k
          have h2 := cellAt_below hn.2 (a := k) (by omega)
          simp [cellAt, show k' ≠ k by omega, h2] at h1
        · exact heq
        · have h1 := h k'
          have h2 := cellAt_below hm.2 (a := k') (by omega)
          simp [cellAt, show k ≠ k' by omega, h2] at h1
      subst hk
      have hu : u = u' := by have := h k; simpa [cellAt] using this
      subst hu
      have : m = n := by
        refine ih hm.2 hn.2 fun a => ?_
        by_cases hak : k = a
        · subst hak; rw [cellAt_below hm.2 (by omega), cellAt_below hn.2 (by omega)]
        · have := h a; simpa [cellAt, hak] using this
      rw [this]

/-! ### Reading and writing a byte -/

theorem byteAt_congr {s t : State} (h : t.mem = s.mem) (a : Addr) : byteAt t a = byteAt s a := by
  simp only [byteAt, h]

theorem kind_congr {s t : State} (h : t.params = s.params) (a : Addr) : t.kind a = s.kind a := by
  simp only [State.kind, h]

theorem isPlain_congr {s t : State} (h : t.params = s.params) (a : Addr) : t.isPlain a = s.isPlain a := by
  simp only [State.isPlain, State.kind, h]

theorem isRam_congr {s t : State} (h : t.params = s.params) (a : Addr) : t.isRam a = s.isRam a := by
  simp only [State.isRam, State.kind, h]

theorem isPlain_of_isRam {s : State} {a : Addr} (h : s.isRam a = true) : s.isPlain a = true := by
  simp only [State.isRam] at h
  simp only [State.isPlain, h, Bool.true_or]

/-- Memory after a write: `rom` keeps what it has. -/
def memAfterWrite (a : Addr) (v : Byte) (s : State) : List Host.Cell :=
  if s.isRam a then setCell s.mem a.toNat v else s.mem

/-- A read answers a byte exactly at a plain address, and then the byte that stands there. -/
theorem memRead_eq_next {a : Addr} {s : State} {v : Byte} :
    memRead a s = .next v ↔ s.isPlain a = true ∧ v = byteAt s a := by
  simp only [memRead, State.isPlain]
  cases s.kind a <;> simp [eq_comm (a := v)]

theorem memRead_plain {a : Addr} {s : State} (h : s.isPlain a = true) : memRead a s = .next (byteAt s a) :=
  memRead_eq_next.2 ⟨h, rfl⟩

/-- A write goes on exactly at a plain address, and changes memory alone. -/
theorem memWrite_eq_next {a : Addr} {v : Byte} {s t : State} :
    memWrite a v s = .next t ↔ s.isPlain a = true ∧ t = setMem (memAfterWrite a v s) s := by
  simp only [memWrite, State.isPlain, memAfterWrite, State.isRam]
  split <;> rename_i h <;> simp [h, eq_comm (a := t), setMem]

theorem memWrite_plain {a : Addr} {v : Byte} {s : State} (h : s.isPlain a = true) :
    memWrite a v s = .next (setMem (memAfterWrite a v s) s) :=
  memWrite_eq_next.2 ⟨h, rfl⟩

/-- What each byte reads as in a state whose memory is that after a write. -/
theorem byteAt_memAfterWrite {s t : State} {a : Addr} {v : Byte} (ht : t.mem = memAfterWrite a v s) (x : Addr) :
    byteAt t x = if x = a ∧ s.isRam a = true then v else byteAt s x := by
  simp only [byteAt, ht, memAfterWrite]
  by_cases hr : s.isRam a = true
  · simp only [hr, if_true, cellAt_setCell, BitVec.toNat_inj, and_true, eq_comm (a := a)]
    by_cases hx : x = a <;> simp [hx]
  · simp [hr]

/-- Every write keeps the canonical form of memory. -/
theorem Memory.wf_memAfterWrite {s : State} (h : Memory.wf s.mem) (a : Addr) (v : Byte) :
    Memory.wf (memAfterWrite a v s) := by
  simp only [memAfterWrite]
  split
  · exact Memory.wf_setCell h a v
  · exact h

/-- The memory after reset has the canonical form. -/
theorem Memory.wf_reset : Memory.wf State.reset.mem := rfl

end Sys2Proof.Machine
end

