-- ==== Sys2Proof/Laws/Ops.lean ====
section
/-! SUPPORT. For each shared operation, when it goes on and what the next state is: cited instead of unfolding it. -/

namespace Sys2Proof.Machine

/-! ### Bytes -/

theorem joinBytes_toNat (hi lo : Byte) : (joinBytes hi lo).toNat = 256 * hi.toNat + lo.toNat := by
  have := lo.isLt
  simp only [joinBytes, BitVec.toNat_append]
  rw [Nat.shiftLeft_eq, ← Nat.shiftLeft_eq, ← Nat.shiftLeft_add_eq_or_of_lt this, Nat.shiftLeft_eq]
  omega

theorem loByte_toNat (w : Addr) : (loByte w).toNat = w.toNat % 256 := by
  simp [loByte]

theorem hiByte_toNat (w : Addr) : (hiByte w).toNat = w.toNat / 256 := by
  have := w.isLt
  simp only [hiByte, BitVec.toNat_setWidth, BitVec.toNat_ushiftRight, Nat.shiftRight_eq_div_pow]
  omega

theorem zext16_toNat (b : Byte) : (zext16 b).toNat = b.toNat := by
  have := b.isLt
  simp only [zext16, BitVec.toNat_setWidth]; omega

/-- The two bytes of a 16-bit value give it back: pushing and pulling an address loses nothing. -/
@[simp] theorem joinBytes_hi_lo (w : Addr) : joinBytes (hiByte w) (loByte w) = w := by
  apply BitVec.eq_of_toNat_eq
  rw [joinBytes_toNat, loByte_toNat, hiByte_toNat]; omega

@[simp] theorem loByte_joinBytes (hi lo : Byte) : loByte (joinBytes hi lo) = lo := by
  have := lo.isLt
  apply BitVec.eq_of_toNat_eq
  rw [loByte_toNat, joinBytes_toNat]; omega

@[simp] theorem hiByte_joinBytes (hi lo : Byte) : hiByte (joinBytes hi lo) = hi := by
  have := lo.isLt
  apply BitVec.eq_of_toNat_eq
  rw [hiByte_toNat, joinBytes_toNat]; omega

theorem stackAddr_toNat (sp : Byte) : (stackAddr sp).toNat = 256 + sp.toNat := by
  rw [stackAddr, joinBytes_toNat]; rfl

/-- Two stack addresses are equal only for one value of S. -/
@[simp] theorem stackAddr_inj {p q : Byte} : stackAddr p = stackAddr q ↔ p = q := by
  constructor
  · intro h
    have := congrArg BitVec.toNat h
    rw [stackAddr_toNat, stackAddr_toNat] at this
    exact BitVec.eq_of_toNat_eq (by omega)
  · rintro rfl; rfl

/-- The vectors do not lie in the stack page. -/
theorem stackAddr_ne_of_le {p : Byte} {a : Addr} (h : 512 ≤ a.toNat) : a ≠ stackAddr p := by
  rintro rfl
  have := p.isLt
  rw [stackAddr_toNat] at h; omega

/-! ### The stack -/

theorem push_eq_next {v : Byte} {s t : State} :
    push v s = .next t ↔ s.isPlain (stackAddr s.regS) = true ∧
      t = setS (s.regS - 1) (setMem (memAfterWrite (stackAddr s.regS) v s) s) := by
  simp only [push, andThen_eq_next, memWrite_eq_next]
  constructor
  · rintro ⟨x, ⟨h, rfl⟩, hx⟩
    cases hx
    exact ⟨h, rfl⟩
  · rintro ⟨h, rfl⟩
    exact ⟨_, ⟨h, rfl⟩, rfl⟩

theorem pull_eq_next {s : State} {p : Byte × State} :
    pull s = .next p ↔ s.isPlain (stackAddr (s.regS + 1)) = true ∧
      p = (byteAt s (stackAddr (s.regS + 1)), setS (s.regS + 1) s) := by
  simp only [pull, andThen_eq_next, memRead_eq_next]
  constructor
  · rintro ⟨x, ⟨h, rfl⟩, hx⟩
    cases hx
    exact ⟨h, rfl⟩
  · rintro ⟨h, rfl⟩
    exact ⟨_, ⟨h, rfl⟩, rfl⟩

theorem readPair_eq_next {lo hi : Addr} {s : State} {w : Addr} :
    readPair lo hi s = .next w ↔ s.isPlain lo = true ∧ s.isPlain hi = true ∧ w = joinBytes (byteAt s hi) (byteAt s lo) := by
  simp only [readPair, andThen_eq_next, memRead_eq_next]
  constructor
  · rintro ⟨x, ⟨h, rfl⟩, y, ⟨h', rfl⟩, hw⟩
    cases hw
    exact ⟨h, h', rfl⟩
  · rintro ⟨h, h', rfl⟩
    exact ⟨_, ⟨h, rfl⟩, _, ⟨h', rfl⟩, rfl⟩

/-- The state after a push. -/
def pushed (v : Byte) (s : State) : State := setS (s.regS - 1) (setMem (memAfterWrite (stackAddr s.regS) v s) s)

@[simp] theorem pushed_regS (v : Byte) (s : State) : (pushed v s).regS = s.regS - 1 := rfl
@[simp] theorem pushed_regA (v : Byte) (s : State) : (pushed v s).regA = s.regA := rfl
@[simp] theorem pushed_regX (v : Byte) (s : State) : (pushed v s).regX = s.regX := rfl
@[simp] theorem pushed_regY (v : Byte) (s : State) : (pushed v s).regY = s.regY := rfl
@[simp] theorem pushed_pc (v : Byte) (s : State) : (pushed v s).pc = s.pc := rfl
@[simp] theorem pushed_flagN (v : Byte) (s : State) : (pushed v s).flagN = s.flagN := rfl
@[simp] theorem pushed_flagV (v : Byte) (s : State) : (pushed v s).flagV = s.flagV := rfl
@[simp] theorem pushed_flagD (v : Byte) (s : State) : (pushed v s).flagD = s.flagD := rfl
@[simp] theorem pushed_flagI (v : Byte) (s : State) : (pushed v s).flagI = s.flagI := rfl
@[simp] theorem pushed_flagZ (v : Byte) (s : State) : (pushed v s).flagZ = s.flagZ := rfl
@[simp] theorem pushed_flagC (v : Byte) (s : State) : (pushed v s).flagC = s.flagC := rfl
@[simp] theorem pushed_irqLine (v : Byte) (s : State) : (pushed v s).irqLine = s.irqLine := rfl
@[simp] theorem pushed_nmiPending (v : Byte) (s : State) : (pushed v s).nmiPending = s.nmiPending := rfl
@[simp] theorem pushed_iPoll (v : Byte) (s : State) : (pushed v s).iPoll = s.iPoll := rfl
@[simp] theorem pushed_resetLine (v : Byte) (s : State) : (pushed v s).resetLine = s.resetLine := rfl
@[simp] theorem pushed_faultMark (v : Byte) (s : State) : (pushed v s).faultMark = s.faultMark := rfl
@[simp] theorem pushed_draws (v : Byte) (s : State) : (pushed v s).draws = s.draws := rfl
@[simp] theorem pushed_params (v : Byte) (s : State) : (pushed v s).params = s.params := rfl
@[simp] theorem isPlain_pushed (v : Byte) (s : State) (addr : Addr) : (pushed v s).isPlain addr = s.isPlain addr := rfl
@[simp] theorem isRam_pushed (v : Byte) (s : State) (addr : Addr) : (pushed v s).isRam addr = s.isRam addr := rfl

/-- After a push the stack byte holds the value, if it is `ram`; every other byte reads as before. -/
theorem byteAt_pushed (v : Byte) (s : State) (x : Addr) :
    byteAt (pushed v s) x = if x = stackAddr s.regS ∧ s.isRam x = true then v else byteAt s x := by
  rw [byteAt_memAfterWrite (s := s) (a := stackAddr s.regS) (v := v) rfl]
  by_cases h : x = stackAddr s.regS
  · subst h; rfl
  · simp [h]

@[simp] theorem packP_pushed (b : Bool) (v : Byte) (s : State) : packP b (pushed v s) = packP b s := rfl

theorem push_eq_pushed {v : Byte} {s t : State} :
    push v s = .next t ↔ s.isPlain (stackAddr s.regS) = true ∧ t = pushed v s := push_eq_next

theorem pushPair_eq_next {w : Addr} {s t : State} :
    pushPair w s = .next t ↔ s.isPlain (stackAddr s.regS) = true ∧ s.isPlain (stackAddr (s.regS - 1)) = true ∧
      t = pushed (loByte w) (pushed (hiByte w) s) := by
  simp only [pushPair, andThen_eq_next, push_eq_next]
  constructor
  · rintro ⟨x, ⟨h, rfl⟩, h', rfl⟩
    exact ⟨h, h', rfl⟩
  · rintro ⟨h, h', rfl⟩
    exact ⟨_, ⟨h, rfl⟩, h', rfl⟩

theorem pullPair_eq_next {s : State} {p : Addr × State} :
    pullPair s = .next p ↔ s.isPlain (stackAddr (s.regS + 1)) = true ∧ s.isPlain (stackAddr (s.regS + 1 + 1)) = true ∧
      p = (joinBytes (byteAt s (stackAddr (s.regS + 1 + 1))) (byteAt s (stackAddr (s.regS + 1))),
        setS (s.regS + 1 + 1) s) := by
  simp only [pullPair, andThen_eq_next, pull_eq_next]
  constructor
  · rintro ⟨x, ⟨h, rfl⟩, y, ⟨h', rfl⟩, hp⟩
    cases hp
    exact ⟨h, h', rfl⟩
  · rintro ⟨h, h', rfl⟩
    exact ⟨_, ⟨h, rfl⟩, _, ⟨h', rfl⟩, rfl⟩

/-! ### Exception entry, return, reset -/

/-- The state in which an exception entry reads its vector: the return address and the status pushed, I set. -/
def entered (b : Bool) (ret : Addr) (s : State) : State :=
  clearDOnEntry (setI true (pushed (packP b s) (pushed (loByte ret) (pushed (hiByte ret) s))))

@[simp] theorem entered_regA (b : Bool) (ret : Addr) (s : State) : (entered b ret s).regA = s.regA := by
  simp only [entered, clearDOnEntry_regA, setI_regA, pushed_regA]
@[simp] theorem entered_regX (b : Bool) (ret : Addr) (s : State) : (entered b ret s).regX = s.regX := by
  simp only [entered, clearDOnEntry_regX, setI_regX, pushed_regX]
@[simp] theorem entered_regY (b : Bool) (ret : Addr) (s : State) : (entered b ret s).regY = s.regY := by
  simp only [entered, clearDOnEntry_regY, setI_regY, pushed_regY]
@[simp] theorem entered_regS (b : Bool) (ret : Addr) (s : State) : (entered b ret s).regS = s.regS - 1 - 1 - 1 := by
  simp only [entered, clearDOnEntry_regS, setI_regS, pushed_regS]
@[simp] theorem entered_pc (b : Bool) (ret : Addr) (s : State) : (entered b ret s).pc = s.pc := by
  simp only [entered, clearDOnEntry_pc, setI_pc, pushed_pc]
@[simp] theorem entered_flagN (b : Bool) (ret : Addr) (s : State) : (entered b ret s).flagN = s.flagN := by
  simp only [entered, clearDOnEntry_flagN, setI_flagN, pushed_flagN]
@[simp] theorem entered_flagV (b : Bool) (ret : Addr) (s : State) : (entered b ret s).flagV = s.flagV := by
  simp only [entered, clearDOnEntry_flagV, setI_flagV, pushed_flagV]
@[simp] theorem entered_flagD (b : Bool) (ret : Addr) (s : State) : (entered b ret s).flagD = if s.params.intClearsD then false else s.flagD := by
  simp only [entered, clearDOnEntry_flagD, setI_flagD, pushed_flagD, setI_params, pushed_params]; congr
@[simp] theorem entered_flagI (b : Bool) (ret : Addr) (s : State) : (entered b ret s).flagI = true := by
  simp only [entered, clearDOnEntry_flagI, setI_flagI]
@[simp] theorem entered_flagZ (b : Bool) (ret : Addr) (s : State) : (entered b ret s).flagZ = s.flagZ := by
  simp only [entered, clearDOnEntry_flagZ, setI_flagZ, pushed_flagZ]
@[simp] theorem entered_flagC (b : Bool) (ret : Addr) (s : State) : (entered b ret s).flagC = s.flagC := by
  simp only [entered, clearDOnEntry_flagC, setI_flagC, pushed_flagC]
@[simp] theorem entered_irqLine (b : Bool) (ret : Addr) (s : State) : (entered b ret s).irqLine = s.irqLine := by
  simp only [entered, clearDOnEntry_irqLine, setI_irqLine, pushed_irqLine]
@[simp] theorem entered_nmiPending (b : Bool) (ret : Addr) (s : State) : (entered b ret s).nmiPending = s.nmiPending := by
  simp only [entered, clearDOnEntry_nmiPending, setI_nmiPending, pushed_nmiPending]
@[simp] theorem entered_iPoll (b : Bool) (ret : Addr) (s : State) : (entered b ret s).iPoll = s.iPoll := by
  simp only [entered, clearDOnEntry_iPoll, setI_iPoll, pushed_iPoll]
@[simp] theorem entered_resetLine (b : Bool) (ret : Addr) (s : State) : (entered b ret s).resetLine = s.resetLine := by
  simp only [entered, clearDOnEntry_resetLine, setI_resetLine, pushed_resetLine]
@[simp] theorem entered_faultMark (b : Bool) (ret : Addr) (s : State) : (entered b ret s).faultMark = s.faultMark := by
  simp only [entered, clearDOnEntry_faultMark, setI_faultMark, pushed_faultMark]
@[simp] theorem entered_draws (b : Bool) (ret : Addr) (s : State) : (entered b ret s).draws = s.draws := by
  simp only [entered, clearDOnEntry_draws, setI_draws, pushed_draws]
@[simp] theorem entered_params (b : Bool) (ret : Addr) (s : State) : (entered b ret s).params = s.params := by
  simp only [entered, clearDOnEntry_params, setI_params, pushed_params]
@[simp] theorem isPlain_entered (b : Bool) (ret : Addr) (s : State) (addr : Addr) :
    (entered b ret s).isPlain addr = s.isPlain addr := by
  simp only [entered, isPlain_clearDOnEntry, isPlain_setI, isPlain_pushed]

/-- The three bytes that an exception entry pushes; every other byte reads as before. -/
theorem byteAt_entered (b : Bool) (ret : Addr) (s : State) (x : Addr) :
    byteAt (entered b ret s) x =
      if x = stackAddr (s.regS - 1 - 1) ∧ s.isRam x = true then packP b s
      else if x = stackAddr (s.regS - 1) ∧ s.isRam x = true then loByte ret
      else if x = stackAddr s.regS ∧ s.isRam x = true then hiByte ret
      else byteAt s x := by
  simp only [entered, byteAt_clearDOnEntry, byteAt_setI, byteAt_pushed, pushed_regS, isRam_pushed]

/-- An exception entry pushes nothing over the vectors. -/
theorem byteAt_entered_of_le (b : Bool) (ret : Addr) (s : State) {a : Addr} (h : 512 ≤ a.toNat) :
    byteAt (entered b ret s) a = byteAt s a := by
  simp only [byteAt_entered, stackAddr_ne_of_le h, false_and, if_false]

theorem takeInterrupt_eq_next {vec : Addr} {b : Bool} {ret : Addr} {s t : State} :
    takeInterrupt vec b ret s = .next t ↔
      s.isPlain (stackAddr s.regS) = true ∧ s.isPlain (stackAddr (s.regS - 1)) = true ∧
      s.isPlain (stackAddr (s.regS - 1 - 1)) = true ∧ s.isPlain vec = true ∧ s.isPlain (vec + 1) = true ∧
      t = setPoll true (setPC (joinBytes (byteAt (entered b ret s) (vec + 1)) (byteAt (entered b ret s) vec))
        (entered b ret s)) := by
  simp only [takeInterrupt, enterThrough, andThen_eq_next, pushPair_eq_next, push_eq_pushed, readPair_eq_next, Host.Outcome.next.injEq]
  constructor
  · rintro ⟨x, ⟨h1, h2, rfl⟩, y, ⟨h3, rfl⟩, w, ⟨h4, h5, rfl⟩, rfl⟩
    simp only [packP_pushed, isPlain_clearDOnEntry, isPlain_setI, isPlain_pushed, pushed_regS] at h3 h4 h5 ⊢
    exact ⟨h1, h2, h3, h4, h5, rfl⟩
  · rintro ⟨h1, h2, h3, h4, h5, rfl⟩
    refine ⟨_, ⟨h1, h2, rfl⟩, _, ⟨?_, rfl⟩, _, ⟨?_, ?_, rfl⟩, ?_⟩ <;>
      simp only [packP_pushed, isPlain_clearDOnEntry, isPlain_setI, isPlain_pushed, pushed_regS, h3, h4, h5, entered]

theorem returnFromInterrupt_eq_next {s t : State} :
    returnFromInterrupt s = .next t ↔
      s.isPlain (stackAddr (s.regS + 1)) = true ∧ s.isPlain (stackAddr (s.regS + 1 + 1)) = true ∧
      s.isPlain (stackAddr (s.regS + 1 + 1 + 1)) = true ∧
      t = setPC (joinBytes (byteAt s (stackAddr (s.regS + 1 + 1 + 1))) (byteAt s (stackAddr (s.regS + 1 + 1))))
        (setS (s.regS + 1 + 1 + 1) (unpackP (byteAt s (stackAddr (s.regS + 1))) (setS (s.regS + 1) s))) := by
  simp only [returnFromInterrupt, andThen_eq_next, pull_eq_next, pullPair_eq_next]
  constructor
  · rintro ⟨x, ⟨h1, rfl⟩, y, ⟨h2, h3, rfl⟩, ht⟩
    cases ht
    exact ⟨h1, h2, h3, rfl⟩
  · rintro ⟨h1, h2, h3, rfl⟩
    exact ⟨_, ⟨h1, rfl⟩, _, ⟨h2, h3, rfl⟩, rfl⟩

theorem takeReset_eq_next {s t : State} :
    takeReset s = .next t ↔ s.isPlain resetVector = true ∧ s.isPlain (resetVector + 1) = true ∧
      t = drawUnspecified (setPoll true
        { setPC (joinBytes (byteAt s (resetVector + 1)) (byteAt s resetVector)) (setI true s) with
          nmiPending := if s.params.hwInterrupts then false else s.nmiPending }) := by
  simp only [takeReset, andThen_eq_next, readPair_eq_next]
  constructor
  · rintro ⟨x, ⟨h1, h2, rfl⟩, ht⟩
    cases ht
    exact ⟨h1, h2, rfl⟩
  · rintro ⟨h1, h2, rfl⟩
    exact ⟨_, ⟨h1, h2, rfl⟩, rfl⟩

/-! ### Operands -/

@[simp] theorem ReadForm.read_imm (b : Byte) (s : State) : (ReadForm.imm b).read s = .next b := rfl

theorem ReadForm.read_mem_eq_next {f : MemForm} {s : State} {m : Byte} :
    (ReadForm.mem f).read s = .next m ↔ ∃ a, f.ea s = .next a ∧ s.isPlain a = true ∧ m = byteAt s a := by
  simp only [ReadForm.read, andThen_eq_next, memRead_eq_next]

theorem withOperand_eq_next {f : ReadForm} {e : Byte → State → State} {s t : State} :
    withOperand f e s = .next t ↔ ∃ m, f.read s = .next m ∧ t = advance f.length (e m s) := by
  simp only [withOperand, andThen_eq_next]
  refine exists_congr fun m => and_congr_right fun _ => ?_
  constructor
  · intro h; cases h; rfl
  · rintro rfl; rfl

theorem storeOperand_eq_next {f : MemForm} {v : Byte} {s t : State} :
    storeOperand f v s = .next t ↔ ∃ a, f.ea s = .next a ∧ s.isPlain a = true ∧
      t = advance f.length (setMem (memAfterWrite a v s) s) := by
  simp only [storeOperand, andThen_eq_next, memWrite_eq_next]
  refine exists_congr fun a => and_congr_right fun _ => ?_
  constructor
  · rintro ⟨x, ⟨h, rfl⟩, ht⟩
    cases ht
    exact ⟨h, rfl⟩
  · rintro ⟨h, rfl⟩
    exact ⟨_, ⟨h, rfl⟩, rfl⟩

theorem modifyMemory_eq_next {f : MemForm} {g : Byte → Byte} {e : Byte → State → State} {s t : State} :
    modifyMemory f g e s = .next t ↔ ∃ a, f.ea s = .next a ∧ s.isPlain a = true ∧
      t = advance f.length (setNZ (g (byteAt s a)) (e (byteAt s a) (setMem (memAfterWrite a (g (byteAt s a)) s) s))) := by
  simp only [modifyMemory, andThen_eq_next, memRead_eq_next, memWrite_eq_next]
  refine exists_congr fun a => and_congr_right fun _ => ?_
  constructor
  · rintro ⟨x, ⟨h, rfl⟩, y, ⟨_, rfl⟩, ht⟩
    cases ht
    exact ⟨h, rfl⟩
  · rintro ⟨h, rfl⟩
    exact ⟨_, ⟨h, rfl⟩, _, ⟨h, rfl⟩, rfl⟩

@[simp] theorem modifyOperand_acc (g : Byte → Byte) (e : Byte → State → State) (s : State) :
    modifyOperand .acc g e s = .next (advance 1 (setNZ (g s.regA) (setA (g s.regA) (e s.regA s)))) := rfl

@[simp] theorem modifyOperand_mem (f : MemForm) (g : Byte → Byte) (e : Byte → State → State) (s : State) :
    modifyOperand (.mem f) g e s = modifyMemory f g e s := rfl

theorem indirectTarget_eq_next {w : Addr} {s : State} {target : Addr} :
    indirectTarget w s = .next target ↔ s.isPlain w = true ∧
      s.isPlain (if s.params.jmpIndPageWrap then joinBytes (hiByte w) (loByte w + 1) else w + 1) = true ∧
      target = joinBytes (byteAt s (if s.params.jmpIndPageWrap then joinBytes (hiByte w) (loByte w + 1) else w + 1))
        (byteAt s w) :=
  readPair_eq_next

theorem indexedIndirectTarget_eq_next {w : Addr} {s : State} {target : Addr} :
    indexedIndirectTarget w s = .next target ↔ s.isPlain (w + zext16 s.regX) = true ∧
      s.isPlain (w + zext16 s.regX + 1) = true ∧
      target = joinBytes (byteAt s (w + zext16 s.regX + 1)) (byteAt s (w + zext16 s.regX)) :=
  readPair_eq_next

/-- What each memory mode's effective address is, and when the mode's pointer can be read. -/
theorem MemForm.ea_eq_next {f : MemForm} {s : State} {a : Addr} :
    f.ea s = .next a ↔
      match f with
      | .zp b => a = zext16 b
      | .zpX b => a = zext16 (b + s.regX)
      | .zpY b => a = zext16 (b + s.regY)
      | .abs w => a = w
      | .absX w => a = w + zext16 s.regX
      | .absY w => a = w + zext16 s.regY
      | .indX b => s.isPlain (zext16 (b + s.regX)) = true ∧ s.isPlain (zext16 (b + s.regX + 1)) = true ∧
          a = joinBytes (byteAt s (zext16 (b + s.regX + 1))) (byteAt s (zext16 (b + s.regX)))
      | .indY b => s.isPlain (zext16 b) = true ∧ s.isPlain (zext16 (b + 1)) = true ∧
          a = joinBytes (byteAt s (zext16 (b + 1))) (byteAt s (zext16 b)) + zext16 s.regY := by
  cases f <;> simp only [MemForm.ea, readPair_eq_next, andThen_eq_next, Host.Outcome.next.injEq] <;>
    try exact eq_comm
  constructor
  · rintro ⟨x, ⟨h1, h2, rfl⟩, rfl⟩
    exact ⟨h1, h2, rfl⟩
  · rintro ⟨h1, h2, rfl⟩
    exact ⟨_, ⟨h1, h2, rfl⟩, rfl⟩

end Sys2Proof.Machine
end

