-- ==== Sys2Proof/Laws/PerInstr.lean ====
section
/-! SUPPORT. Statements made instruction by instruction, about the instruction as text: its encoding. -/

namespace Sys2Proof.Laws

/-- The encoding of an instruction has the length that R62 gives its addressing mode, and begins with its opcode byte,
whose row in the opcode map asks for exactly that many bytes. -/
def EncodeLength.Statement (i : Instr) : Prop :=
  (encode i).length = i.length ∧ (encode i).head? = some i.opcode ∧
    match opcodeRow i.opcode with
    | some (.one _) => i.length = 1
    | some (.two _) => i.length = 2
    | some (.three _) => i.length = 3
    | none => False

theorem EncodeLength.ldaImm (b : Byte) : EncodeLength.Statement (.ldaImm b) := ⟨rfl, rfl, rfl⟩
theorem EncodeLength.ldaZp (b : Byte) : EncodeLength.Statement (.ldaZp b) := ⟨rfl, rfl, rfl⟩
theorem EncodeLength.ldaZpX (b : Byte) : EncodeLength.Statement (.ldaZpX b) := ⟨rfl, rfl, rfl⟩
theorem EncodeLength.ldaAbs (w : Addr) : EncodeLength.Statement (.ldaAbs w) := ⟨rfl, rfl, rfl⟩
theorem EncodeLength.ldaAbsX (w : Addr) : EncodeLength.Statement (.ldaAbsX w) := ⟨rfl, rfl, rfl⟩
theorem EncodeLength.ldaAbsY (w : Addr) : EncodeLength.Statement (.ldaAbsY w) := ⟨rfl, rfl, rfl⟩
theorem EncodeLength.ldaIndX (b : Byte) : EncodeLength.Statement (.ldaIndX b) := ⟨rfl, rfl, rfl⟩
theorem EncodeLength.ldaIndY (b : Byte) : EncodeLength.Statement (.ldaIndY b) := ⟨rfl, rfl, rfl⟩
theorem EncodeLength.ldxImm (b : Byte) : EncodeLength.Statement (.ldxImm b) := ⟨rfl, rfl, rfl⟩
theorem EncodeLength.ldxZp (b : Byte) : EncodeLength.Statement (.ldxZp b) := ⟨rfl, rfl, rfl⟩
theorem EncodeLength.ldxZpY (b : Byte) : EncodeLength.Statement (.ldxZpY b) := ⟨rfl, rfl, rfl⟩
theorem EncodeLength.ldxAbs (w : Addr) : EncodeLength.Statement (.ldxAbs w) := ⟨rfl, rfl, rfl⟩
theorem EncodeLength.ldxAbsY (w : Addr) : EncodeLength.Statement (.ldxAbsY w) := ⟨rfl, rfl, rfl⟩
theorem EncodeLength.ldyImm (b : Byte) : EncodeLength.Statement (.ldyImm b) := ⟨rfl, rfl, rfl⟩
theorem EncodeLength.ldyZp (b : Byte) : EncodeLength.Statement (.ldyZp b) := ⟨rfl, rfl, rfl⟩
theorem EncodeLength.ldyZpX (b : Byte) : EncodeLength.Statement (.ldyZpX b) := ⟨rfl, rfl, rfl⟩
theorem EncodeLength.ldyAbs (w : Addr) : EncodeLength.Statement (.ldyAbs w) := ⟨rfl, rfl, rfl⟩
theorem EncodeLength.ldyAbsX (w : Addr) : EncodeLength.Statement (.ldyAbsX w) := ⟨rfl, rfl, rfl⟩
theorem EncodeLength.staZp (b : Byte) : EncodeLength.Statement (.staZp b) := ⟨rfl, rfl, rfl⟩
theorem EncodeLength.staZpX (b : Byte) : EncodeLength.Statement (.staZpX b) := ⟨rfl, rfl, rfl⟩
theorem EncodeLength.staAbs (w : Addr) : EncodeLength.Statement (.staAbs w) := ⟨rfl, rfl, rfl⟩
theorem EncodeLength.staAbsX (w : Addr) : EncodeLength.Statement (.staAbsX w) := ⟨rfl, rfl, rfl⟩
theorem EncodeLength.staAbsY (w : Addr) : EncodeLength.Statement (.staAbsY w) := ⟨rfl, rfl, rfl⟩
theorem EncodeLength.staIndX (b : Byte) : EncodeLength.Statement (.staIndX b) := ⟨rfl, rfl, rfl⟩
theorem EncodeLength.staIndY (b : Byte) : EncodeLength.Statement (.staIndY b) := ⟨rfl, rfl, rfl⟩
theorem EncodeLength.stxZp (b : Byte) : EncodeLength.Statement (.stxZp b) := ⟨rfl, rfl, rfl⟩
theorem EncodeLength.stxZpY (b : Byte) : EncodeLength.Statement (.stxZpY b) := ⟨rfl, rfl, rfl⟩
theorem EncodeLength.stxAbs (w : Addr) : EncodeLength.Statement (.stxAbs w) := ⟨rfl, rfl, rfl⟩
theorem EncodeLength.styZp (b : Byte) : EncodeLength.Statement (.styZp b) := ⟨rfl, rfl, rfl⟩
theorem EncodeLength.styZpX (b : Byte) : EncodeLength.Statement (.styZpX b) := ⟨rfl, rfl, rfl⟩
theorem EncodeLength.styAbs (w : Addr) : EncodeLength.Statement (.styAbs w) := ⟨rfl, rfl, rfl⟩
theorem EncodeLength.adcImm (b : Byte) : EncodeLength.Statement (.adcImm b) := ⟨rfl, rfl, rfl⟩
theorem EncodeLength.adcZp (b : Byte) : EncodeLength.Statement (.adcZp b) := ⟨rfl, rfl, rfl⟩
theorem EncodeLength.adcZpX (b : Byte) : EncodeLength.Statement (.adcZpX b) := ⟨rfl, rfl, rfl⟩
theorem EncodeLength.adcAbs (w : Addr) : EncodeLength.Statement (.adcAbs w) := ⟨rfl, rfl, rfl⟩
theorem EncodeLength.adcAbsX (w : Addr) : EncodeLength.Statement (.adcAbsX w) := ⟨rfl, rfl, rfl⟩
theorem EncodeLength.adcAbsY (w : Addr) : EncodeLength.Statement (.adcAbsY w) := ⟨rfl, rfl, rfl⟩
theorem EncodeLength.adcIndX (b : Byte) : EncodeLength.Statement (.adcIndX b) := ⟨rfl, rfl, rfl⟩
theorem EncodeLength.adcIndY (b : Byte) : EncodeLength.Statement (.adcIndY b) := ⟨rfl, rfl, rfl⟩
theorem EncodeLength.sbcImm (b : Byte) : EncodeLength.Statement (.sbcImm b) := ⟨rfl, rfl, rfl⟩
theorem EncodeLength.sbcZp (b : Byte) : EncodeLength.Statement (.sbcZp b) := ⟨rfl, rfl, rfl⟩
theorem EncodeLength.sbcZpX (b : Byte) : EncodeLength.Statement (.sbcZpX b) := ⟨rfl, rfl, rfl⟩
theorem EncodeLength.sbcAbs (w : Addr) : EncodeLength.Statement (.sbcAbs w) := ⟨rfl, rfl, rfl⟩
theorem EncodeLength.sbcAbsX (w : Addr) : EncodeLength.Statement (.sbcAbsX w) := ⟨rfl, rfl, rfl⟩
theorem EncodeLength.sbcAbsY (w : Addr) : EncodeLength.Statement (.sbcAbsY w) := ⟨rfl, rfl, rfl⟩
theorem EncodeLength.sbcIndX (b : Byte) : EncodeLength.Statement (.sbcIndX b) := ⟨rfl, rfl, rfl⟩
theorem EncodeLength.sbcIndY (b : Byte) : EncodeLength.Statement (.sbcIndY b) := ⟨rfl, rfl, rfl⟩
theorem EncodeLength.incZp (b : Byte) : EncodeLength.Statement (.incZp b) := ⟨rfl, rfl, rfl⟩
theorem EncodeLength.incZpX (b : Byte) : EncodeLength.Statement (.incZpX b) := ⟨rfl, rfl, rfl⟩
theorem EncodeLength.incAbs (w : Addr) : EncodeLength.Statement (.incAbs w) := ⟨rfl, rfl, rfl⟩
theorem EncodeLength.incAbsX (w : Addr) : EncodeLength.Statement (.incAbsX w) := ⟨rfl, rfl, rfl⟩
theorem EncodeLength.inx : EncodeLength.Statement (.inx) := ⟨rfl, rfl, rfl⟩
theorem EncodeLength.iny : EncodeLength.Statement (.iny) := ⟨rfl, rfl, rfl⟩
theorem EncodeLength.decZp (b : Byte) : EncodeLength.Statement (.decZp b) := ⟨rfl, rfl, rfl⟩
theorem EncodeLength.decZpX (b : Byte) : EncodeLength.Statement (.decZpX b) := ⟨rfl, rfl, rfl⟩
theorem EncodeLength.decAbs (w : Addr) : EncodeLength.Statement (.decAbs w) := ⟨rfl, rfl, rfl⟩
theorem EncodeLength.decAbsX (w : Addr) : EncodeLength.Statement (.decAbsX w) := ⟨rfl, rfl, rfl⟩
theorem EncodeLength.dex : EncodeLength.Statement (.dex) := ⟨rfl, rfl, rfl⟩
theorem EncodeLength.dey : EncodeLength.Statement (.dey) := ⟨rfl, rfl, rfl⟩
theorem EncodeLength.aslA : EncodeLength.Statement (.aslA) := ⟨rfl, rfl, rfl⟩
theorem EncodeLength.aslZp (b : Byte) : EncodeLength.Statement (.aslZp b) := ⟨rfl, rfl, rfl⟩
theorem EncodeLength.aslZpX (b : Byte) : EncodeLength.Statement (.aslZpX b) := ⟨rfl, rfl, rfl⟩
theorem EncodeLength.aslAbs (w : Addr) : EncodeLength.Statement (.aslAbs w) := ⟨rfl, rfl, rfl⟩
theorem EncodeLength.aslAbsX (w : Addr) : EncodeLength.Statement (.aslAbsX w) := ⟨rfl, rfl, rfl⟩
theorem EncodeLength.lsrA : EncodeLength.Statement (.lsrA) := ⟨rfl, rfl, rfl⟩
theorem EncodeLength.lsrZp (b : Byte) : EncodeLength.Statement (.lsrZp b) := ⟨rfl, rfl, rfl⟩
theorem EncodeLength.lsrZpX (b : Byte) : EncodeLength.Statement (.lsrZpX b) := ⟨rfl, rfl, rfl⟩
theorem EncodeLength.lsrAbs (w : Addr) : EncodeLength.Statement (.lsrAbs w) := ⟨rfl, rfl, rfl⟩
theorem EncodeLength.lsrAbsX (w : Addr) : EncodeLength.Statement (.lsrAbsX w) := ⟨rfl, rfl, rfl⟩
theorem EncodeLength.rolA : EncodeLength.Statement (.rolA) := ⟨rfl, rfl, rfl⟩
theorem EncodeLength.rolZp (b : Byte) : EncodeLength.Statement (.rolZp b) := ⟨rfl, rfl, rfl⟩
theorem EncodeLength.rolZpX (b : Byte) : EncodeLength.Statement (.rolZpX b) := ⟨rfl, rfl, rfl⟩
theorem EncodeLength.rolAbs (w : Addr) : EncodeLength.Statement (.rolAbs w) := ⟨rfl, rfl, rfl⟩
theorem EncodeLength.rolAbsX (w : Addr) : EncodeLength.Statement (.rolAbsX w) := ⟨rfl, rfl, rfl⟩
theorem EncodeLength.rorA : EncodeLength.Statement (.rorA) := ⟨rfl, rfl, rfl⟩
theorem EncodeLength.rorZp (b : Byte) : EncodeLength.Statement (.rorZp b) := ⟨rfl, rfl, rfl⟩
theorem EncodeLength.rorZpX (b : Byte) : EncodeLength.Statement (.rorZpX b) := ⟨rfl, rfl, rfl⟩
theorem EncodeLength.rorAbs (w : Addr) : EncodeLength.Statement (.rorAbs w) := ⟨rfl, rfl, rfl⟩
theorem EncodeLength.rorAbsX (w : Addr) : EncodeLength.Statement (.rorAbsX w) := ⟨rfl, rfl, rfl⟩
theorem EncodeLength.andImm (b : Byte) : EncodeLength.Statement (.andImm b) := ⟨rfl, rfl, rfl⟩
theorem EncodeLength.andZp (b : Byte) : EncodeLength.Statement (.andZp b) := ⟨rfl, rfl, rfl⟩
theorem EncodeLength.andZpX (b : Byte) : EncodeLength.Statement (.andZpX b) := ⟨rfl, rfl, rfl⟩
theorem EncodeLength.andAbs (w : Addr) : EncodeLength.Statement (.andAbs w) := ⟨rfl, rfl, rfl⟩
theorem EncodeLength.andAbsX (w : Addr) : EncodeLength.Statement (.andAbsX w) := ⟨rfl, rfl, rfl⟩
theorem EncodeLength.andAbsY (w : Addr) : EncodeLength.Statement (.andAbsY w) := ⟨rfl, rfl, rfl⟩
theorem EncodeLength.andIndX (b : Byte) : EncodeLength.Statement (.andIndX b) := ⟨rfl, rfl, rfl⟩
theorem EncodeLength.andIndY (b : Byte) : EncodeLength.Statement (.andIndY b) := ⟨rfl, rfl, rfl⟩
theorem EncodeLength.oraImm (b : Byte) : EncodeLength.Statement (.oraImm b) := ⟨rfl, rfl, rfl⟩
theorem EncodeLength.oraZp (b : Byte) : EncodeLength.Statement (.oraZp b) := ⟨rfl, rfl, rfl⟩
theorem EncodeLength.oraZpX (b : Byte) : EncodeLength.Statement (.oraZpX b) := ⟨rfl, rfl, rfl⟩
theorem EncodeLength.oraAbs (w : Addr) : EncodeLength.Statement (.oraAbs w) := ⟨rfl, rfl, rfl⟩
theorem EncodeLength.oraAbsX (w : Addr) : EncodeLength.Statement (.oraAbsX w) := ⟨rfl, rfl, rfl⟩
theorem EncodeLength.oraAbsY (w : Addr) : EncodeLength.Statement (.oraAbsY w) := ⟨rfl, rfl, rfl⟩
theorem EncodeLength.oraIndX (b : Byte) : EncodeLength.Statement (.oraIndX b) := ⟨rfl, rfl, rfl⟩
theorem EncodeLength.oraIndY (b : Byte) : EncodeLength.Statement (.oraIndY b) := ⟨rfl, rfl, rfl⟩
theorem EncodeLength.eorImm (b : Byte) : EncodeLength.Statement (.eorImm b) := ⟨rfl, rfl, rfl⟩
theorem EncodeLength.eorZp (b : Byte) : EncodeLength.Statement (.eorZp b) := ⟨rfl, rfl, rfl⟩
theorem EncodeLength.eorZpX (b : Byte) : EncodeLength.Statement (.eorZpX b) := ⟨rfl, rfl, rfl⟩
theorem EncodeLength.eorAbs (w : Addr) : EncodeLength.Statement (.eorAbs w) := ⟨rfl, rfl, rfl⟩
theorem EncodeLength.eorAbsX (w : Addr) : EncodeLength.Statement (.eorAbsX w) := ⟨rfl, rfl, rfl⟩
theorem EncodeLength.eorAbsY (w : Addr) : EncodeLength.Statement (.eorAbsY w) := ⟨rfl, rfl, rfl⟩
theorem EncodeLength.eorIndX (b : Byte) : EncodeLength.Statement (.eorIndX b) := ⟨rfl, rfl, rfl⟩
theorem EncodeLength.eorIndY (b : Byte) : EncodeLength.Statement (.eorIndY b) := ⟨rfl, rfl, rfl⟩
theorem EncodeLength.cmpImm (b : Byte) : EncodeLength.Statement (.cmpImm b) := ⟨rfl, rfl, rfl⟩
theorem EncodeLength.cmpZp (b : Byte) : EncodeLength.Statement (.cmpZp b) := ⟨rfl, rfl, rfl⟩
theorem EncodeLength.cmpZpX (b : Byte) : EncodeLength.Statement (.cmpZpX b) := ⟨rfl, rfl, rfl⟩
theorem EncodeLength.cmpAbs (w : Addr) : EncodeLength.Statement (.cmpAbs w) := ⟨rfl, rfl, rfl⟩
theorem EncodeLength.cmpAbsX (w : Addr) : EncodeLength.Statement (.cmpAbsX w) := ⟨rfl, rfl, rfl⟩
theorem EncodeLength.cmpAbsY (w : Addr) : EncodeLength.Statement (.cmpAbsY w) := ⟨rfl, rfl, rfl⟩
theorem EncodeLength.cmpIndX (b : Byte) : EncodeLength.Statement (.cmpIndX b) := ⟨rfl, rfl, rfl⟩
theorem EncodeLength.cmpIndY (b : Byte) : EncodeLength.Statement (.cmpIndY b) := ⟨rfl, rfl, rfl⟩
theorem EncodeLength.cpxImm (b : Byte) : EncodeLength.Statement (.cpxImm b) := ⟨rfl, rfl, rfl⟩
theorem EncodeLength.cpxZp (b : Byte) : EncodeLength.Statement (.cpxZp b) := ⟨rfl, rfl, rfl⟩
theorem EncodeLength.cpxAbs (w : Addr) : EncodeLength.Statement (.cpxAbs w) := ⟨rfl, rfl, rfl⟩
theorem EncodeLength.cpyImm (b : Byte) : EncodeLength.Statement (.cpyImm b) := ⟨rfl, rfl, rfl⟩
theorem EncodeLength.cpyZp (b : Byte) : EncodeLength.Statement (.cpyZp b) := ⟨rfl, rfl, rfl⟩
theorem EncodeLength.cpyAbs (w : Addr) : EncodeLength.Statement (.cpyAbs w) := ⟨rfl, rfl, rfl⟩
theorem EncodeLength.bitImm (b : Byte) : EncodeLength.Statement (.bitImm b) := ⟨rfl, rfl, rfl⟩
theorem EncodeLength.bitZp (b : Byte) : EncodeLength.Statement (.bitZp b) := ⟨rfl, rfl, rfl⟩
theorem EncodeLength.bitAbs (w : Addr) : EncodeLength.Statement (.bitAbs w) := ⟨rfl, rfl, rfl⟩
theorem EncodeLength.bcc (disp : Byte) : EncodeLength.Statement (.bcc disp) := ⟨rfl, rfl, rfl⟩
theorem EncodeLength.bcs (disp : Byte) : EncodeLength.Statement (.bcs disp) := ⟨rfl, rfl, rfl⟩
theorem EncodeLength.beq (disp : Byte) : EncodeLength.Statement (.beq disp) := ⟨rfl, rfl, rfl⟩
theorem EncodeLength.bmi (disp : Byte) : EncodeLength.Statement (.bmi disp) := ⟨rfl, rfl, rfl⟩
theorem EncodeLength.bne (disp : Byte) : EncodeLength.Statement (.bne disp) := ⟨rfl, rfl, rfl⟩
theorem EncodeLength.bpl (disp : Byte) : EncodeLength.Statement (.bpl disp) := ⟨rfl, rfl, rfl⟩
theorem EncodeLength.bvc (disp : Byte) : EncodeLength.Statement (.bvc disp) := ⟨rfl, rfl, rfl⟩
theorem EncodeLength.bvs (disp : Byte) : EncodeLength.Statement (.bvs disp) := ⟨rfl, rfl, rfl⟩
theorem EncodeLength.tax : EncodeLength.Statement (.tax) := ⟨rfl, rfl, rfl⟩
theorem EncodeLength.txa : EncodeLength.Statement (.txa) := ⟨rfl, rfl, rfl⟩
theorem EncodeLength.tay : EncodeLength.Statement (.tay) := ⟨rfl, rfl, rfl⟩
theorem EncodeLength.tya : EncodeLength.Statement (.tya) := ⟨rfl, rfl, rfl⟩
theorem EncodeLength.tsx : EncodeLength.Statement (.tsx) := ⟨rfl, rfl, rfl⟩
theorem EncodeLength.txs : EncodeLength.Statement (.txs) := ⟨rfl, rfl, rfl⟩
theorem EncodeLength.pha : EncodeLength.Statement (.pha) := ⟨rfl, rfl, rfl⟩
theorem EncodeLength.pla : EncodeLength.Statement (.pla) := ⟨rfl, rfl, rfl⟩
theorem EncodeLength.php : EncodeLength.Statement (.php) := ⟨rfl, rfl, rfl⟩
theorem EncodeLength.plp : EncodeLength.Statement (.plp) := ⟨rfl, rfl, rfl⟩
theorem EncodeLength.jmpAbs (w : Addr) : EncodeLength.Statement (.jmpAbs w) := ⟨rfl, rfl, rfl⟩
theorem EncodeLength.jmpInd (w : Addr) : EncodeLength.Statement (.jmpInd w) := ⟨rfl, rfl, rfl⟩
theorem EncodeLength.jmpIndAbsX (w : Addr) : EncodeLength.Statement (.jmpIndAbsX w) := ⟨rfl, rfl, rfl⟩
theorem EncodeLength.jsr (w : Addr) : EncodeLength.Statement (.jsr w) := ⟨rfl, rfl, rfl⟩
theorem EncodeLength.rts : EncodeLength.Statement (.rts) := ⟨rfl, rfl, rfl⟩
theorem EncodeLength.rti : EncodeLength.Statement (.rti) := ⟨rfl, rfl, rfl⟩
theorem EncodeLength.sec : EncodeLength.Statement (.sec) := ⟨rfl, rfl, rfl⟩
theorem EncodeLength.sed : EncodeLength.Statement (.sed) := ⟨rfl, rfl, rfl⟩
theorem EncodeLength.sei : EncodeLength.Statement (.sei) := ⟨rfl, rfl, rfl⟩
theorem EncodeLength.clc : EncodeLength.Statement (.clc) := ⟨rfl, rfl, rfl⟩
theorem EncodeLength.cld : EncodeLength.Statement (.cld) := ⟨rfl, rfl, rfl⟩
theorem EncodeLength.cli : EncodeLength.Statement (.cli) := ⟨rfl, rfl, rfl⟩
theorem EncodeLength.clv : EncodeLength.Statement (.clv) := ⟨rfl, rfl, rfl⟩
theorem EncodeLength.nop : EncodeLength.Statement (.nop) := ⟨rfl, rfl, rfl⟩
theorem EncodeLength.brk : EncodeLength.Statement (.brk) := ⟨rfl, rfl, rfl⟩

end Sys2Proof.Laws
end

