-- ==== Sys2Proof/Laws/Step.lean ====
section
/-! SUPPORT. What a fetch answers, and what a step can do. -/

namespace Sys2Proof.Machine

/-- The opcode byte decides what is fetched: nothing, or the instruction with as many operand bytes as its row asks for. -/
theorem fetch_eq_next {s : State} {i : Instr} :
    fetch s = .next i ↔ s.isPlain s.pc = true ∧
      match opcodeRow (byteAt s s.pc) with
      | none => False
      | some (.one j) => i = j
      | some (.two mk) => s.isPlain (s.pc + 1) = true ∧ i = mk (byteAt s (s.pc + 1))
      | some (.three mk) => s.isPlain (s.pc + 1) = true ∧ s.isPlain (s.pc + 2) = true ∧
          i = mk (joinBytes (byteAt s (s.pc + 2)) (byteAt s (s.pc + 1))) := by
  by_cases h : s.isPlain s.pc = true
  · have hop : fetch s = andThen (.next (byteAt s s.pc)) _ := congrArg (andThen · _) (memRead_plain h)
    rw [hop, andThen_next]
    simp only [h, true_and]
    rcases opcodeRow (byteAt s s.pc) with _ | (j | mk | mk)
    · simp
    · simp [eq_comm]
    · simp only [andThen_eq_next, memRead_eq_next, Host.Outcome.next.injEq]
      constructor
      · rintro ⟨_, ⟨h1, rfl⟩, rfl⟩; exact ⟨h1, rfl⟩
      · rintro ⟨h1, rfl⟩; exact ⟨_, ⟨h1, rfl⟩, rfl⟩
    · simp only [andThen_eq_next, memRead_eq_next, Host.Outcome.next.injEq]
      constructor
      · rintro ⟨_, ⟨h1, rfl⟩, _, ⟨h2, rfl⟩, rfl⟩; exact ⟨h1, h2, rfl⟩
      · rintro ⟨h1, h2, rfl⟩; exact ⟨_, ⟨h1, rfl⟩, _, ⟨h2, rfl⟩, rfl⟩
  · refine iff_of_false (fun hk => h ?_) (fun hk => h hk.1)
    obtain ⟨_, h1, _⟩ := andThen_eq_next.1 hk
    exact (memRead_eq_next.1 h1).1

/-- A step that goes on is a reset, an NMI, an IRQ, or one instruction, in this order (R226, R227). -/
theorem step_eq_next {s t : State} (h : step s = .next t) :
    s.faultMark = false ∧
      ((s.resetLine = true ∧ takeReset s = .next t) ∨
       (s.resetLine = false ∧ nmiDue s = true ∧ takeNmi s = .next t) ∨
       (s.resetLine = false ∧ nmiDue s = false ∧ irqDue s = true ∧ takeIrq s = .next t) ∨
       (s.resetLine = false ∧ nmiDue s = false ∧ irqDue s = false ∧
         ∃ i u, fetch s = .next i ∧ exec i s = .next u ∧ t = afterInstruction i u)) := by
  unfold step at h
  split at h
  · cases h
  · rename_i hf
    refine ⟨by simpa using hf, ?_⟩
    split at h
    · exact .inl ⟨‹_›, h⟩
    · rename_i hr
      have hr : s.resetLine = false := by simpa using hr
      split at h
      · exact .inr (.inl ⟨hr, ‹_›, h⟩)
      · rename_i hn
        have hn : nmiDue s = false := by simpa using hn
        split at h
        · exact .inr (.inr (.inl ⟨hr, hn, ‹_›, h⟩))
        · rename_i hi
          have hi : irqDue s = false := by simpa using hi
          obtain ⟨i, hfi, hk⟩ := andThen_eq_next.1 h
          obtain ⟨u, hu, ht⟩ := andThen_eq_next.1 hk
          cases ht
          exact .inr (.inr (.inr ⟨hr, hn, hi, i, u, hfi, hu, rfl⟩))

/-- With nothing else due, a step is one instruction. -/
theorem step_of_quiet {s : State} (hf : s.faultMark = false) (hr : s.resetLine = false) (hn : nmiDue s = false)
    (hi : irqDue s = false) : step s = runInstruction s := by
  simp [step, hf, hr, hn, hi]

end Sys2Proof.Machine
end

