-- ==== Sys2Proof/Laws/Run.lean ====
section
/-! SUPPORT. What a run does at one boundary. -/

namespace Sys2Proof.Machine

@[simp] theorem applyMoves_nil (s : State) : applyMoves [] s = s := rfl

@[simp] theorem applyMoves_cons (m : PlatformMove) (ms : List PlatformMove) (s : State) :
    applyMoves (m :: ms) s = applyMoves ms (platformMove s m) := rfl

/-- A move changes the inputs of the processor and nothing else. -/
theorem platformMove_eq (s : State) (m : PlatformMove) :
    platformMove s m = { s with
      irqLine := (platformMove s m).irqLine, nmiPending := (platformMove s m).nmiPending,
      resetLine := (platformMove s m).resetLine } := by
  cases m <;> simp only [platformMove] <;> split <;> rfl

/-- So do the moves of one boundary. -/
theorem applyMoves_eq (ms : List PlatformMove) (s : State) :
    applyMoves ms s = { s with
      irqLine := (applyMoves ms s).irqLine, nmiPending := (applyMoves ms s).nmiPending,
      resetLine := (applyMoves ms s).resetLine } := by
  induction ms generalizing s with
  | nil => rfl
  | cons m ms ih =>
    rw [applyMoves_cons, ih, platformMove_eq s m]

/-- A run that is not marked and not at `END_PC` makes the moves, then takes one step: it goes on from the state the step
answers, or stops with the state the step ran on. -/
theorem runWith_cons {s : State} (hf : s.faultMark = false) (he : atEnd s = false) (moves : List PlatformMove)
    (rest : List (List PlatformMove)) :
    runWith (moves :: rest) s =
      match step (applyMoves moves s) with
      | .next t => runWith rest t
      | .fault r => .faulted { applyMoves moves s with faultMark := true } r
      | .refused r => .refused (applyMoves moves s) r := by
  rw [runWith, hf, he]; rfl

end Sys2Proof.Machine
end

