-- ==== Sys2Proof/Tests/Slice0.lean ====
section
/-! SUPPORT. Tests. Expected results come from the spec: the encodings of its opcode tables (30_encoding.md R79, R80) and the
vectors of 95_test_vectors.md, whose number is part of a test's name (`test_lda_LS_1` is V-LS-1). Each is one step on a
small state. Last come the witnesses: for every claim with hypotheses, values that meet them together. -/

open Sys2Proof Sys2Proof.Machine

namespace Sys2Proof.Tests

/-! ### Helpers -/

/-- The default pre-state of the vectors ("Conventions"), but for the bytes that are placed. -/
def start : State := { State.reset with regS := 0xFF, pc := 0x1000, flagI := false, iPoll := false }

/-- Bytes placed at an address upward. -/
def put (a : Addr) (bs : List Byte) (s : State) : State := { s with mem := storeBytes bs a s.mem }

/-- The six flags as the vectors write them. -/
def nvdizc (s : State) : List Bool := [s.flagN, s.flagV, s.flagD, s.flagI, s.flagZ, s.flagC]

/-- The step goes on, to a state of which `p` holds. -/
def after (s : State) (p : State → Bool) : Bool :=
  match step s with
  | .next t => p t
  | _ => false

/-- The step faults with this reason. -/
def faultsWith (s : State) (r : Fault) : Bool :=
  match step s with
  | .fault q => q == r
  | _ => false

/-- The step is refused with this reason. -/
def refusedWith (s : State) (r : Refusal) : Bool :=
  match step s with
  | .refused q => q == r
  | _ => false

/-- What stands at an address. -/
def has (t : State) (a : Nat) (v : Byte) : Bool := cellAt t.mem a == some v

/-- These bytes, all of them, are this instruction. -/
def reads (bs : List Byte) (i : Instr) : Bool :=
  match decode bs with
  | .ok (j, []) => j == i
  | _ => false

/-! ### Well-formedness: each check refuses an ill-formed map -/

/-- The default map and one with a rom and a device are well-formed. -/
theorem test_wf_accepts : Config.vectorParams.wf = true ∧
    { Config.vectorParams with memMap := [⟨0xC000, 0xCFFF, .device⟩, ⟨0xF000, 0xFFFF, .rom⟩] }.wf = true := by decide +kernel

theorem test_wf_refuses_empty_region : Region.ordered ⟨0x2000, 0x1FFF, .rom⟩ = false := by decide

theorem test_wf_refuses_overlap : Params.mapDisjoint
    { Config.vectorParams with memMap := [⟨0x1000, 0x2000, .rom⟩, ⟨0x2000, 0x3000, .device⟩] } = false := by decide

theorem test_wf_refuses_device_at_reset_vector : Params.resetVectorReadable
    { Config.vectorParams with memMap := [⟨0xFFFD, 0xFFFF, .device⟩] } = false := by decide

theorem test_wf_refuses_rom_stack : Params.stackPageIsRam
    { Config.vectorParams with memMap := [⟨0x01FF, 0x0200, .rom⟩] } = false := by decide +kernel

/-! ### Decoding: the words of 30_encoding.md R79 and R80, written out byte by byte -/

theorem test_decode_lda :
    (reads [0xA9, 0x80] (.ldaImm 0x80) && reads [0xA5, 0x80] (.ldaZp 0x80) && reads [0xB5, 0x80] (.ldaZpX 0x80) &&
      reads [0xAD, 0x34, 0x12] (.ldaAbs 0x1234) && reads [0xBD, 0x34, 0x12] (.ldaAbsX 0x1234) &&
      reads [0xB9, 0x34, 0x12] (.ldaAbsY 0x1234) && reads [0xA1, 0x80] (.ldaIndX 0x80) &&
      reads [0xB1, 0x80] (.ldaIndY 0x80)) = true := by decide

theorem test_decode_ldx :
    (reads [0xA2, 0x80] (.ldxImm 0x80) && reads [0xA6, 0x80] (.ldxZp 0x80) && reads [0xB6, 0x80] (.ldxZpY 0x80) &&
      reads [0xAE, 0x34, 0x12] (.ldxAbs 0x1234) && reads [0xBE, 0x34, 0x12] (.ldxAbsY 0x1234)) = true := by decide

theorem test_decode_ldy :
    (reads [0xA0, 0x80] (.ldyImm 0x80) && reads [0xA4, 0x80] (.ldyZp 0x80) && reads [0xB4, 0x80] (.ldyZpX 0x80) &&
      reads [0xAC, 0x34, 0x12] (.ldyAbs 0x1234) && reads [0xBC, 0x34, 0x12] (.ldyAbsX 0x1234)) = true := by decide

theorem test_decode_sta :
    (reads [0x85, 0x80] (.staZp 0x80) && reads [0x95, 0x80] (.staZpX 0x80) &&
      reads [0x8D, 0x34, 0x12] (.staAbs 0x1234) && reads [0x9D, 0x34, 0x12] (.staAbsX 0x1234) &&
      reads [0x99, 0x34, 0x12] (.staAbsY 0x1234) && reads [0x81, 0x80] (.staIndX 0x80) &&
      reads [0x91, 0x80] (.staIndY 0x80)) = true := by decide

theorem test_decode_stx :
    (reads [0x86, 0x80] (.stxZp 0x80) && reads [0x96, 0x80] (.stxZpY 0x80) &&
      reads [0x8E, 0x34, 0x12] (.stxAbs 0x1234)) = true := by decide

theorem test_decode_sty :
    (reads [0x84, 0x80] (.styZp 0x80) && reads [0x94, 0x80] (.styZpX 0x80) &&
      reads [0x8C, 0x34, 0x12] (.styAbs 0x1234)) = true := by decide

theorem test_decode_adc :
    (reads [0x69, 0x80] (.adcImm 0x80) && reads [0x65, 0x80] (.adcZp 0x80) && reads [0x75, 0x80] (.adcZpX 0x80) &&
      reads [0x6D, 0x34, 0x12] (.adcAbs 0x1234) && reads [0x7D, 0x34, 0x12] (.adcAbsX 0x1234) &&
      reads [0x79, 0x34, 0x12] (.adcAbsY 0x1234) && reads [0x61, 0x80] (.adcIndX 0x80) &&
      reads [0x71, 0x80] (.adcIndY 0x80)) = true := by decide

theorem test_decode_sbc :
    (reads [0xE9, 0x80] (.sbcImm 0x80) && reads [0xE5, 0x80] (.sbcZp 0x80) && reads [0xF5, 0x80] (.sbcZpX 0x80) &&
      reads [0xED, 0x34, 0x12] (.sbcAbs 0x1234) && reads [0xFD, 0x34, 0x12] (.sbcAbsX 0x1234) &&
      reads [0xF9, 0x34, 0x12] (.sbcAbsY 0x1234) && reads [0xE1, 0x80] (.sbcIndX 0x80) &&
      reads [0xF1, 0x80] (.sbcIndY 0x80)) = true := by decide

theorem test_decode_inc :
    (reads [0xE6, 0x80] (.incZp 0x80) && reads [0xF6, 0x80] (.incZpX 0x80) &&
      reads [0xEE, 0x34, 0x12] (.incAbs 0x1234) && reads [0xFE, 0x34, 0x12] (.incAbsX 0x1234)) = true := by decide

theorem test_decode_inx : reads [0xE8] .inx = true := by decide

theorem test_decode_iny : reads [0xC8] .iny = true := by decide

theorem test_decode_dec :
    (reads [0xC6, 0x80] (.decZp 0x80) && reads [0xD6, 0x80] (.decZpX 0x80) &&
      reads [0xCE, 0x34, 0x12] (.decAbs 0x1234) && reads [0xDE, 0x34, 0x12] (.decAbsX 0x1234)) = true := by decide

theorem test_decode_dex : reads [0xCA] .dex = true := by decide

theorem test_decode_dey : reads [0x88] .dey = true := by decide

theorem test_decode_asl :
    (reads [0x0A] .aslA && reads [0x06, 0x80] (.aslZp 0x80) && reads [0x16, 0x80] (.aslZpX 0x80) &&
      reads [0x0E, 0x34, 0x12] (.aslAbs 0x1234) && reads [0x1E, 0x34, 0x12] (.aslAbsX 0x1234)) = true := by decide

theorem test_decode_lsr :
    (reads [0x4A] .lsrA && reads [0x46, 0x80] (.lsrZp 0x80) && reads [0x56, 0x80] (.lsrZpX 0x80) &&
      reads [0x4E, 0x34, 0x12] (.lsrAbs 0x1234) && reads [0x5E, 0x34, 0x12] (.lsrAbsX 0x1234)) = true := by decide

theorem test_decode_rol :
    (reads [0x2A] .rolA && reads [0x26, 0x80] (.rolZp 0x80) && reads [0x36, 0x80] (.rolZpX 0x80) &&
      reads [0x2E, 0x34, 0x12] (.rolAbs 0x1234) && reads [0x3E, 0x34, 0x12] (.rolAbsX 0x1234)) = true := by decide

theorem test_decode_ror :
    (reads [0x6A] .rorA && reads [0x66, 0x80] (.rorZp 0x80) && reads [0x76, 0x80] (.rorZpX 0x80) &&
      reads [0x6E, 0x34, 0x12] (.rorAbs 0x1234) && reads [0x7E, 0x34, 0x12] (.rorAbsX 0x1234)) = true := by decide

theorem test_decode_and :
    (reads [0x29, 0x80] (.andImm 0x80) && reads [0x25, 0x80] (.andZp 0x80) && reads [0x35, 0x80] (.andZpX 0x80) &&
      reads [0x2D, 0x34, 0x12] (.andAbs 0x1234) && reads [0x3D, 0x34, 0x12] (.andAbsX 0x1234) &&
      reads [0x39, 0x34, 0x12] (.andAbsY 0x1234) && reads [0x21, 0x80] (.andIndX 0x80) &&
      reads [0x31, 0x80] (.andIndY 0x80)) = true := by decide

theorem test_decode_ora :
    (reads [0x09, 0x80] (.oraImm 0x80) && reads [0x05, 0x80] (.oraZp 0x80) && reads [0x15, 0x80] (.oraZpX 0x80) &&
      reads [0x0D, 0x34, 0x12] (.oraAbs 0x1234) && reads [0x1D, 0x34, 0x12] (.oraAbsX 0x1234) &&
      reads [0x19, 0x34, 0x12] (.oraAbsY 0x1234) && reads [0x01, 0x80] (.oraIndX 0x80) &&
      reads [0x11, 0x80] (.oraIndY 0x80)) = true := by decide

theorem test_decode_eor :
    (reads [0x49, 0x80] (.eorImm 0x80) && reads [0x45, 0x80] (.eorZp 0x80) && reads [0x55, 0x80] (.eorZpX 0x80) &&
      reads [0x4D, 0x34, 0x12] (.eorAbs 0x1234) && reads [0x5D, 0x34, 0x12] (.eorAbsX 0x1234) &&
      reads [0x59, 0x34, 0x12] (.eorAbsY 0x1234) && reads [0x41, 0x80] (.eorIndX 0x80) &&
      reads [0x51, 0x80] (.eorIndY 0x80)) = true := by decide

theorem test_decode_cmp :
    (reads [0xC9, 0x80] (.cmpImm 0x80) && reads [0xC5, 0x80] (.cmpZp 0x80) && reads [0xD5, 0x80] (.cmpZpX 0x80) &&
      reads [0xCD, 0x34, 0x12] (.cmpAbs 0x1234) && reads [0xDD, 0x34, 0x12] (.cmpAbsX 0x1234) &&
      reads [0xD9, 0x34, 0x12] (.cmpAbsY 0x1234) && reads [0xC1, 0x80] (.cmpIndX 0x80) &&
      reads [0xD1, 0x80] (.cmpIndY 0x80)) = true := by decide

theorem test_decode_cpx :
    (reads [0xE0, 0x80] (.cpxImm 0x80) && reads [0xE4, 0x80] (.cpxZp 0x80) &&
      reads [0xEC, 0x34, 0x12] (.cpxAbs 0x1234)) = true := by decide

theorem test_decode_cpy :
    (reads [0xC0, 0x80] (.cpyImm 0x80) && reads [0xC4, 0x80] (.cpyZp 0x80) &&
      reads [0xCC, 0x34, 0x12] (.cpyAbs 0x1234)) = true := by decide

theorem test_decode_bit :
    (reads [0x89, 0x80] (.bitImm 0x80) && reads [0x24, 0x80] (.bitZp 0x80) &&
      reads [0x2C, 0x34, 0x12] (.bitAbs 0x1234)) = true := by decide

theorem test_decode_bcc : reads [0x90, 0x80] (.bcc 0x80) = true := by decide

theorem test_decode_bcs : reads [0xB0, 0x80] (.bcs 0x80) = true := by decide

theorem test_decode_beq : reads [0xF0, 0x80] (.beq 0x80) = true := by decide

theorem test_decode_bmi : reads [0x30, 0x80] (.bmi 0x80) = true := by decide

theorem test_decode_bne : reads [0xD0, 0x80] (.bne 0x80) = true := by decide

theorem test_decode_bpl : reads [0x10, 0x80] (.bpl 0x80) = true := by decide

theorem test_decode_bvc : reads [0x50, 0x80] (.bvc 0x80) = true := by decide

theorem test_decode_bvs : reads [0x70, 0x80] (.bvs 0x80) = true := by decide

theorem test_decode_tax : reads [0xAA] .tax = true := by decide

theorem test_decode_txa : reads [0x8A] .txa = true := by decide

theorem test_decode_tay : reads [0xA8] .tay = true := by decide

theorem test_decode_tya : reads [0x98] .tya = true := by decide

theorem test_decode_tsx : reads [0xBA] .tsx = true := by decide

theorem test_decode_txs : reads [0x9A] .txs = true := by decide

theorem test_decode_pha : reads [0x48] .pha = true := by decide

theorem test_decode_pla : reads [0x68] .pla = true := by decide

theorem test_decode_php : reads [0x08] .php = true := by decide

theorem test_decode_plp : reads [0x28] .plp = true := by decide

theorem test_decode_jmp :
    (reads [0x4C, 0x34, 0x12] (.jmpAbs 0x1234) && reads [0x6C, 0x34, 0x12] (.jmpInd 0x1234) &&
      reads [0x7C, 0x34, 0x12] (.jmpIndAbsX 0x1234)) = true := by decide

theorem test_decode_jsr : reads [0x20, 0x34, 0x12] (.jsr 0x1234) = true := by decide

theorem test_decode_rts : reads [0x60] .rts = true := by decide

theorem test_decode_rti : reads [0x40] .rti = true := by decide

theorem test_decode_sec : reads [0x38] .sec = true := by decide

theorem test_decode_sed : reads [0xF8] .sed = true := by decide

theorem test_decode_sei : reads [0x78] .sei = true := by decide

theorem test_decode_clc : reads [0x18] .clc = true := by decide

theorem test_decode_cld : reads [0xD8] .cld = true := by decide

theorem test_decode_cli : reads [0x58] .cli = true := by decide

theorem test_decode_clv : reads [0xB8] .clv = true := by decide

theorem test_decode_nop : reads [0xEA] .nop = true := by decide

theorem test_decode_brk : reads [0x00] .brk = true := by decide

/-- A byte with no row and a byte that is missing are refused by name; operand bytes of any value are read. -/
theorem test_decode_rejects :
    (match decode [0x02, 0xEA] with | .error (.undefinedOpcode 0x02) => true | _ => false) = true ∧
    (match decode [0xAD, 0x34] with | .error .truncated => true | _ => false) = true ∧
    (match decode ([] : List Byte) with | .error .truncated => true | _ => false) = true := by decide

/-- The table's numbering: the first byte is bits 7 to 0, bytes above `nbits` are 0. -/
theorem test_decode_table_word : decodeTableWord 24 0x1234AD = some (.ldaAbs 0x1234) ∧
    decodeTableWord 8 0xAD = some (.ldaAbs 0x0000) ∧ decodeTableWord 8 0x02 = none := by decide

theorem test_fetch_word_runs :
    after (State.reset.withFetchWord 16 0x80A9) (fun t => t.regA == 0x80 && t.flagN && t.pc == 0x0002) = true := by decide

/-! ### One step, from the vectors -/

theorem test_lda_LS_1 : after
    { put 0x1000 [0xA9, 0x00] start with regA := 0x55, flagN := true }
    (fun t => t.regA == 0x00 && t.pc == 0x1002 && nvdizc t == [false, false, false, false, true, false]) = true := by decide

theorem test_lda_LS_4 : after
    { put 0x0110 [0xA5] (put 0x0010 [0x5A] (put 0x1000 [0xB5, 0xF0] start)) with regX := 0x20 }
    (fun t => t.regA == 0x5A && t.pc == 0x1002 && nvdizc t == [false, false, false, false, false, false]) = true := by decide

theorem test_ldx_LS_10 : after
    (put 0x1000 [0xA2, 0xFF] start)
    (fun t => t.regX == 0xFF && t.pc == 0x1002 && nvdizc t == [true, false, false, false, false, false]) = true := by decide

theorem test_ldx_LS_11 : after
    { put 0x0010 [0x01] (put 0x1000 [0xB6, 0xF0] start) with regY := 0x20 }
    (fun t => t.regX == 0x01 && t.pc == 0x1002 && nvdizc t == [false, false, false, false, false, false]) = true := by decide

theorem test_ldy_LS_13 : after
    { put 0x2005 [0x80] (put 0x1000 [0xBC, 0x00, 0x20] start) with regX := 0x05 }
    (fun t => t.regY == 0x80 && t.pc == 0x1003 && nvdizc t == [true, false, false, false, false, false]) = true := by decide

theorem test_ldy_LS_14 : after
    { put 0x0000 [0x44] (put 0x1000 [0xB4, 0x80] start) with regX := 0x80 }
    (fun t => t.regY == 0x44 && t.pc == 0x1002 && nvdizc t == [false, false, false, false, false, false]) = true := by decide

theorem test_sta_LS_15 : after
    { put 0x1000 [0x8D, 0x00, 0x30] start with flagN := true, flagC := true }
    (fun t => t.pc == 0x1003 && nvdizc t == [true, false, false, false, false, true] && has t 0x3000 0x00) = true := by decide

theorem test_sta_LS_17 : after
    { put 0x1000 [0x99, 0xF0, 0xFF] start with regA := 0xAB, regY := 0x20 }
    (fun t => t.pc == 0x1003 && nvdizc t == [false, false, false, false, false, false] && has t 0x0010 0xAB) = true := by decide

theorem test_stx_LS_21 : after
    { put 0x1000 [0x96, 0x10] start with regX := 0x77, regY := 0xF5 }
    (fun t => t.pc == 0x1002 && nvdizc t == [false, false, false, false, false, false] && has t 0x0005 0x77) = true := by decide

theorem test_stx_LS_22 : after
    { put 0x1000 [0x8E, 0x00, 0x30] start with regX := 0x77 }
    (fun t => t.pc == 0x1003 && nvdizc t == [false, false, false, false, false, false] && has t 0x3000 0x77) = true := by decide

theorem test_sty_LS_23 : after
    { put 0x1000 [0x94, 0x10] start with regX := 0x01, regY := 0x88 }
    (fun t => t.pc == 0x1002 && nvdizc t == [false, false, false, false, false, false] && has t 0x0011 0x88) = true := by decide

theorem test_sty_LS_24 : after
    { put 0x1000 [0x84, 0x10] start with regY := 0x88 }
    (fun t => t.pc == 0x1002 && nvdizc t == [false, false, false, false, false, false] && has t 0x0010 0x88) = true := by decide

theorem test_adc_AR_7 : after
    { put 0x1000 [0x69, 0x90] start with regA := 0xD0 }
    (fun t => t.regA == 0x60 && t.pc == 0x1002 && nvdizc t == [false, true, false, false, false, true]) = true := by decide

theorem test_adc_AR_26 : after
    { put 0x0010 [0x01] (put 0x1000 [0x65, 0x10] start) with regA := 0x01, flagC := true }
    (fun t => t.regA == 0x03 && t.pc == 0x1002 && nvdizc t == [false, false, false, false, false, false]) = true := by decide

theorem test_adc_AR_29 : after
    { put 0x1000 [0x69, 0x46] start with regA := 0x58, flagD := true, flagC := true }
    (fun t => t.regA == 0x05 && t.pc == 0x1002 && t.flagD && !t.flagI && t.flagC) = true := by decide

theorem test_sbc_AR_14 : after
    { put 0x1000 [0xE9, 0xB0] start with regA := 0x50, flagC := true }
    (fun t => t.regA == 0xA0 && t.pc == 0x1002 && nvdizc t == [true, true, false, false, false, false]) = true := by decide

theorem test_sbc_AR_15 : after
    { put 0x1000 [0xE9, 0x70] start with regA := 0x50, flagC := true }
    (fun t => t.regA == 0xE0 && t.pc == 0x1002 && nvdizc t == [true, false, false, false, false, false]) = true := by decide

theorem test_sbc_AR_16 : after
    { put 0x1000 [0xE9, 0x30] start with regA := 0x50, flagC := true }
    (fun t => t.regA == 0x20 && t.pc == 0x1002 && nvdizc t == [false, false, false, false, false, true]) = true := by decide

theorem test_inc_ID_1 : after
    { put 0x0010 [0xFF] (put 0x1000 [0xE6, 0x10] start) with flagV := true, flagC := true }
    (fun t => t.pc == 0x1002 && nvdizc t == [false, true, false, false, true, true] && has t 0x0010 0x00) = true := by decide

theorem test_inc_ID_2 : after
    (put 0x2000 [0x7F] (put 0x1000 [0xEE, 0x00, 0x20] start))
    (fun t => t.pc == 0x1003 && nvdizc t == [true, false, false, false, false, false] && has t 0x2000 0x80) = true := by decide

theorem test_dec_ID_5 : after
    (put 0x0010 [0x00] (put 0x1000 [0xC6, 0x10] start))
    (fun t => t.pc == 0x1002 && nvdizc t == [true, false, false, false, false, false] && has t 0x0010 0xFF) = true := by decide

theorem test_dec_ID_6 : after
    (put 0x2000 [0x01] (put 0x1000 [0xCE, 0x00, 0x20] start))
    (fun t => t.pc == 0x1003 && nvdizc t == [false, false, false, false, true, false] && has t 0x2000 0x00) = true := by decide

theorem test_inx_ID_9 : after
    { put 0x1000 [0xE8] start with regX := 0xFF }
    (fun t => t.regX == 0x00 && t.pc == 0x1001 && nvdizc t == [false, false, false, false, true, false]) = true := by decide

theorem test_inx_ID_10 : after
    { put 0x1000 [0xE8] start with regX := 0x7F }
    (fun t => t.regX == 0x80 && t.pc == 0x1001 && nvdizc t == [true, false, false, false, false, false]) = true := by decide

theorem test_iny_ID_11 : after
    { put 0x1000 [0xC8] start with regY := 0xFF }
    (fun t => t.regY == 0x00 && t.pc == 0x1001 && nvdizc t == [false, false, false, false, true, false]) = true := by decide

theorem test_dex_ID_12 : after
    (put 0x1000 [0xCA] start)
    (fun t => t.regX == 0xFF && t.pc == 0x1001 && nvdizc t == [true, false, false, false, false, false]) = true := by decide

theorem test_dex_ID_13 : after
    { put 0x1000 [0xCA] start with regX := 0x01 }
    (fun t => t.regX == 0x00 && t.pc == 0x1001 && nvdizc t == [false, false, false, false, true, false]) = true := by decide

theorem test_dey_ID_14 : after
    (put 0x1000 [0x88] start)
    (fun t => t.regY == 0xFF && t.pc == 0x1001 && nvdizc t == [true, false, false, false, false, false]) = true := by decide

theorem test_dey_ID_15 : after
    { put 0x1000 [0x88] start with regY := 0x80 }
    (fun t => t.regY == 0x7F && t.pc == 0x1001 && nvdizc t == [false, false, false, false, false, false]) = true := by decide

theorem test_asl_SH_2 : after
    { put 0x1000 [0x0A] start with regA := 0x40, flagC := true }
    (fun t => t.regA == 0x80 && t.pc == 0x1001 && nvdizc t == [true, false, false, false, false, false]) = true := by decide

theorem test_asl_SH_3 : after
    (put 0x0010 [0xFF] (put 0x1000 [0x06, 0x10] start))
    (fun t => t.pc == 0x1002 && nvdizc t == [true, false, false, false, false, true] && has t 0x0010 0xFE) = true := by decide

theorem test_lsr_SH_5 : after
    { put 0x1000 [0x4A] start with regA := 0x01, flagN := true }
    (fun t => t.regA == 0x00 && t.pc == 0x1001 && nvdizc t == [false, false, false, false, true, true]) = true := by decide

theorem test_lsr_SH_7 : after
    { put 0x0011 [0x80] (put 0x1000 [0x56, 0x10] start) with regX := 0x01 }
    (fun t => t.pc == 0x1002 && nvdizc t == [false, false, false, false, false, false] && has t 0x0011 0x40) = true := by decide

theorem test_rol_SH_9 : after
    { put 0x1000 [0x2A] start with regA := 0x80, flagC := true }
    (fun t => t.regA == 0x01 && t.pc == 0x1001 && nvdizc t == [false, false, false, false, false, true]) = true := by decide

theorem test_rol_SH_12 : after
    { put 0x0010 [0x00] (put 0x1000 [0x26, 0x10] start) with flagC := true }
    (fun t => t.pc == 0x1002 && nvdizc t == [false, false, false, false, false, false] && has t 0x0010 0x01) = true := by decide

theorem test_ror_SH_13 : after
    { put 0x1000 [0x6A] start with regA := 0x01 }
    (fun t => t.regA == 0x00 && t.pc == 0x1001 && nvdizc t == [false, false, false, false, true, true]) = true := by decide

theorem test_ror_SH_15 : after
    { put 0x2002 [0xFF] (put 0x1000 [0x7E, 0x00, 0x20] start) with regX := 0x02, flagC := true }
    (fun t => t.pc == 0x1003 && nvdizc t == [true, false, false, false, false, true] && has t 0x2002 0xFF) = true := by decide

theorem test_and_LG_1 : after
    { put 0x1000 [0x29, 0x0F] start with regA := 0xF0 }
    (fun t => t.regA == 0x00 && t.pc == 0x1002 && nvdizc t == [false, false, false, false, true, false]) = true := by decide

theorem test_and_LG_3 : after
    { put 0x0010 [0x0F] (put 0x1000 [0x25, 0x10] start) with regA := 0x3C }
    (fun t => t.regA == 0x0C && t.pc == 0x1002 && nvdizc t == [false, false, false, false, false, false]) = true := by decide

theorem test_ora_LG_4 : after
    (put 0x1000 [0x09, 0x80] start)
    (fun t => t.regA == 0x80 && t.pc == 0x1002 && nvdizc t == [true, false, false, false, false, false]) = true := by decide

theorem test_ora_LG_6 : after
    { put 0x2003 [0x30] (put 0x1000 [0x19, 0x00, 0x20] start) with regA := 0x0F, regY := 0x03 }
    (fun t => t.regA == 0x3F && t.pc == 0x1003 && nvdizc t == [false, false, false, false, false, false]) = true := by decide

theorem test_eor_LG_7 : after
    { put 0x1000 [0x49, 0xFF] start with regA := 0xFF }
    (fun t => t.regA == 0x00 && t.pc == 0x1002 && nvdizc t == [false, false, false, false, true, false]) = true := by decide

theorem test_eor_LG_9 : after
    { put 0x2000 [0x03] (put 0x0012 [0x00, 0x20] (put 0x1000 [0x41, 0x10] start)) with regA := 0x0F, regX := 0x02 }
    (fun t => t.regA == 0x0C && t.pc == 0x1002 && nvdizc t == [false, false, false, false, false, false]) = true := by decide

theorem test_cmp_CP_1 : after
    { put 0x1000 [0xC9, 0x40] start with regA := 0x40, flagV := true }
    (fun t => t.pc == 0x1002 && nvdizc t == [false, true, false, false, true, true]) = true := by decide

theorem test_cmp_CP_11 : after
    { put 0x0010 [0x20] (put 0x1000 [0xC5, 0x10] start) with regA := 0x10 }
    (fun t => t.pc == 0x1002 && nvdizc t == [true, false, false, false, false, false]) = true := by decide

theorem test_cpx_CP_12 : after
    { put 0x1000 [0xE0, 0x04] start with regX := 0x04 }
    (fun t => t.pc == 0x1002 && nvdizc t == [false, false, false, false, true, true]) = true := by decide

theorem test_cpx_CP_13 : after
    { put 0x0010 [0x04] (put 0x1000 [0xE4, 0x10] start) with regX := 0x03 }
    (fun t => t.pc == 0x1002 && nvdizc t == [true, false, false, false, false, false]) = true := by decide

theorem test_cpy_CP_15 : after
    (put 0x1000 [0xC0, 0x00] start)
    (fun t => t.pc == 0x1002 && nvdizc t == [false, false, false, false, true, true]) = true := by decide

theorem test_cpy_CP_17 : after
    { put 0x2000 [0xFF] (put 0x1000 [0xCC, 0x00, 0x20] start) with regY := 0x01 }
    (fun t => t.pc == 0x1003 && nvdizc t == [false, false, false, false, false, false]) = true := by decide

theorem test_bit_CP_22 : after
    { put 0x1000 [0x89, 0xC0] start with regA := 0x01, params := { Config.vectorParams with bitImmWritesNV := true } }
    (fun t => t.pc == 0x1002 && nvdizc t == [true, true, false, false, true, false]) = true := by decide

theorem test_bit_CP_23 : after
    { put 0x1000 [0x89, 0xC0] start with regA := 0x01, params := { Config.vectorParams with bitImmWritesNV := false } }
    (fun t => t.pc == 0x1002 && nvdizc t == [false, false, false, false, true, false]) = true := by decide

theorem test_bit_CP_24 : after
    { put 0x1000 [0x89, 0x01] start with regA := 0x01, flagN := true, flagV := true, params := { Config.vectorParams with bitImmWritesNV := true } }
    (fun t => t.pc == 0x1002 && nvdizc t == [false, false, false, false, false, false]) = true := by decide

theorem test_bne_BR_1 : after
    (put 0x1000 [0xD0, 0x05] start)
    (fun t => t.pc == 0x1007 && nvdizc t == [false, false, false, false, false, false]) = true := by decide

theorem test_bne_BR_2 : after
    { put 0x1000 [0xD0, 0x05] start with flagZ := true }
    (fun t => t.pc == 0x1002 && nvdizc t == [false, false, false, false, true, false]) = true := by decide

theorem test_beq_BR_3 : after
    { put 0x1000 [0xF0, 0xFE] start with flagZ := true }
    (fun t => t.pc == 0x1000 && nvdizc t == [false, false, false, false, true, false]) = true := by decide

theorem test_beq_BR_16 : after
    (put 0x1000 [0xF0, 0xFE] start)
    (fun t => t.pc == 0x1002 && nvdizc t == [false, false, false, false, false, false]) = true := by decide

theorem test_bcc_BR_4 : after
    (put 0x1000 [0x90, 0x80] start)
    (fun t => t.pc == 0x0F82 && nvdizc t == [false, false, false, false, false, false]) = true := by decide

theorem test_bcc_BR_5 : after
    { put 0x1000 [0x90, 0x80] start with flagC := true }
    (fun t => t.pc == 0x1002 && nvdizc t == [false, false, false, false, false, true]) = true := by decide

theorem test_bcs_BR_6 : after
    { put 0x1000 [0xB0, 0x7F] start with flagC := true }
    (fun t => t.pc == 0x1081 && nvdizc t == [false, false, false, false, false, true]) = true := by decide

theorem test_bcs_BR_7 : after
    (put 0x1000 [0xB0, 0x7F] start)
    (fun t => t.pc == 0x1002 && nvdizc t == [false, false, false, false, false, false]) = true := by decide

theorem test_bmi_BR_8 : after
    { put 0x1000 [0x30, 0x10] start with flagN := true }
    (fun t => t.pc == 0x1012 && nvdizc t == [true, false, false, false, false, false]) = true := by decide

theorem test_bmi_BR_9 : after
    (put 0x1000 [0x30, 0x10] start)
    (fun t => t.pc == 0x1002 && nvdizc t == [false, false, false, false, false, false]) = true := by decide

theorem test_bpl_BR_10 : after
    (put 0x1000 [0x10, 0x10] start)
    (fun t => t.pc == 0x1012 && nvdizc t == [false, false, false, false, false, false]) = true := by decide

theorem test_bpl_BR_11 : after
    { put 0x1000 [0x10, 0x10] start with flagN := true }
    (fun t => t.pc == 0x1002 && nvdizc t == [true, false, false, false, false, false]) = true := by decide

theorem test_bvc_BR_12 : after
    (put 0x1000 [0x50, 0x10] start)
    (fun t => t.pc == 0x1012 && nvdizc t == [false, false, false, false, false, false]) = true := by decide

theorem test_bvc_BR_13 : after
    { put 0x1000 [0x50, 0x10] start with flagV := true }
    (fun t => t.pc == 0x1002 && nvdizc t == [false, true, false, false, false, false]) = true := by decide

theorem test_bvs_BR_14 : after
    { put 0x1000 [0x70, 0x10] start with flagV := true }
    (fun t => t.pc == 0x1012 && nvdizc t == [false, true, false, false, false, false]) = true := by decide

theorem test_bvs_BR_15 : after
    (put 0x1000 [0x70, 0x10] start)
    (fun t => t.pc == 0x1002 && nvdizc t == [false, false, false, false, false, false]) = true := by decide

theorem test_tax_TS_1 : after
    { put 0x1000 [0xAA] start with regX := 0x05 }
    (fun t => t.regX == 0x00 && t.pc == 0x1001 && nvdizc t == [false, false, false, false, true, false]) = true := by decide

theorem test_tax_TS_2 : after
    { put 0x1000 [0xAA] start with regA := 0x80 }
    (fun t => t.regX == 0x80 && t.pc == 0x1001 && nvdizc t == [true, false, false, false, false, false]) = true := by decide

theorem test_txa_TS_3 : after
    { put 0x1000 [0x8A] start with regX := 0x7F, flagN := true }
    (fun t => t.regA == 0x7F && t.pc == 0x1001 && nvdizc t == [false, false, false, false, false, false]) = true := by decide

theorem test_tay_TS_4 : after
    { put 0x1000 [0xA8] start with regA := 0xFF }
    (fun t => t.regY == 0xFF && t.pc == 0x1001 && nvdizc t == [true, false, false, false, false, false]) = true := by decide

theorem test_tya_TS_5 : after
    { put 0x1000 [0x98] start with regA := 0x07 }
    (fun t => t.regA == 0x00 && t.pc == 0x1001 && nvdizc t == [false, false, false, false, true, false]) = true := by decide

theorem test_tsx_TS_6 : after
    (put 0x1000 [0xBA] start)
    (fun t => t.regX == 0xFF && t.pc == 0x1001 && nvdizc t == [true, false, false, false, false, false]) = true := by decide

theorem test_tsx_TS_7 : after
    { put 0x1000 [0xBA] start with regX := 0x09, regS := 0x00 }
    (fun t => t.regX == 0x00 && t.pc == 0x1001 && nvdizc t == [false, false, false, false, true, false]) = true := by decide

theorem test_txs_TS_8 : after
    { put 0x1000 [0x9A] start with flagN := true, params := { Config.vectorParams with txsWritesNZ := true } }
    (fun t => t.regS == 0x00 && t.pc == 0x1001 && nvdizc t == [false, false, false, false, true, false]) = true := by decide

theorem test_txs_TS_9 : after
    { put 0x1000 [0x9A] start with flagN := true, params := { Config.vectorParams with txsWritesNZ := false } }
    (fun t => t.regS == 0x00 && t.pc == 0x1001 && nvdizc t == [true, false, false, false, false, false]) = true := by decide

theorem test_pha_TS_12 : after
    { put 0x1000 [0x48] start with regA := 0x42 }
    (fun t => t.regS == 0xFE && t.pc == 0x1001 && nvdizc t == [false, false, false, false, false, false] &&
      has t 0x01FF 0x42) = true := by decide

theorem test_pha_TS_13 : after
    { put 0x1000 [0x48] start with regA := 0x42, regS := 0x00 }
    (fun t => t.regS == 0xFF && t.pc == 0x1001 && nvdizc t == [false, false, false, false, false, false] &&
      has t 0x0100 0x42) = true := by decide

theorem test_pla_TS_14 : after
    { put 0x01FF [0x80] (put 0x1000 [0x68] start) with regS := 0xFE }
    (fun t => t.regA == 0x80 && t.regS == 0xFF && t.pc == 0x1001 &&
      nvdizc t == [true, false, false, false, false, false]) = true := by decide

theorem test_pla_TS_15 : after
    { put 0x0100 [0x00] (put 0x1000 [0x68] start) with regA := 0x09 }
    (fun t => t.regA == 0x00 && t.regS == 0x00 && t.pc == 0x1001 &&
      nvdizc t == [false, false, false, false, true, false]) = true := by decide

theorem test_php_TS_16 : after
    { put 0x1000 [0x08] start with flagN := true, flagC := true }
    (fun t => t.regS == 0xFE && t.pc == 0x1001 && nvdizc t == [true, false, false, false, false, true] &&
      has t 0x01FF 0xB1) = true := by decide

theorem test_php_TS_17 : after
    (put 0x1000 [0x08] start)
    (fun t => t.regS == 0xFE && t.pc == 0x1001 && nvdizc t == [false, false, false, false, false, false] &&
      has t 0x01FF 0x30) = true := by decide

theorem test_plp_TS_19 : after
    { put 0x01FF [0xFF] (put 0x1000 [0x28] start) with regS := 0xFE }
    (fun t => t.regS == 0xFF && t.pc == 0x1001 && nvdizc t == [true, true, true, true, true, true]) = true := by decide

theorem test_plp_TS_21 : after
    { put 0x01FF [0x30] (put 0x1000 [0x28] start) with regS := 0xFE, flagN := true, flagV := true, flagD := true, flagI := true, flagZ := true, flagC := true }
    (fun t => t.regS == 0xFF && t.pc == 0x1001 && nvdizc t == [false, false, false, false, false, false]) = true := by decide

theorem test_jmp_JS_1 : after
    (put 0x1000 [0x4C, 0x34, 0x12] start)
    (fun t => t.pc == 0x1234 && nvdizc t == [false, false, false, false, false, false]) = true := by decide

theorem test_jmp_JS_3 : after
    { put 0x2000 [0x9A] (put 0x2100 [0x56] (put 0x20FF [0x78] (put 0x1000 [0x6C, 0xFF, 0x20] start))) with params := { Config.vectorParams with jmpIndPageWrap := false } }
    (fun t => t.pc == 0x5678 && nvdizc t == [false, false, false, false, false, false]) = true := by decide

theorem test_jmp_JS_4 : after
    { put 0x2000 [0x9A] (put 0x2100 [0x56] (put 0x20FF [0x78] (put 0x1000 [0x6C, 0xFF, 0x20] start))) with params := { Config.vectorParams with jmpIndPageWrap := true } }
    (fun t => t.pc == 0x9A78 && nvdizc t == [false, false, false, false, false, false]) = true := by decide

theorem test_jmp_JS_6 : after
    { put 0x0001 [0xCD, 0xAB] (put 0x1000 [0x7C, 0xFF, 0xFF] start) with regX := 0x02 }
    (fun t => t.pc == 0xABCD && nvdizc t == [false, false, false, false, false, false]) = true := by decide

theorem test_jsr_JS_8 : after
    { put 0x1000 [0x20, 0x00, 0x20] start with regS := 0x00 }
    (fun t => t.regS == 0xFE && t.pc == 0x2000 && nvdizc t == [false, false, false, false, false, false] &&
      has t 0x0100 0x10 && has t 0x01FF 0x02) = true := by decide

theorem test_jsr_JS_9 : after
    { put 0x10FE [0x20, 0x00, 0x20] start with pc := 0x10FE }
    (fun t => t.regS == 0xFD && t.pc == 0x2000 && nvdizc t == [false, false, false, false, false, false] &&
      has t 0x01FF 0x11 && has t 0x01FE 0x00) = true := by decide

theorem test_rts_JS_11 : after
    { put 0x01FE [0xFF, 0xFF] (put 0x1000 [0x60] start) with regS := 0xFD }
    (fun t => t.regS == 0xFF && t.pc == 0x0000 && nvdizc t == [false, false, false, false, false, false]) = true := by decide

theorem test_rts_JS_12 : after
    (put 0x0100 [0x02, 0x10] (put 0x1000 [0x60] start))
    (fun t => t.regS == 0x01 && t.pc == 0x1003 && nvdizc t == [false, false, false, false, false, false]) = true := by decide

theorem test_rti_JS_13 : after
    { put 0x01FD [0xC3, 0x34, 0x12] (put 0x1000 [0x40] start) with regS := 0xFC }
    (fun t => t.regS == 0xFF && t.pc == 0x1234 && nvdizc t == [true, true, false, false, true, true]) = true := by decide

theorem test_rti_JS_14 : after
    { put 0x01FD [0x30, 0x00, 0x80] (put 0x1000 [0x40] start) with regS := 0xFC, flagN := true, flagV := true, flagD := true, flagI := true, flagZ := true, flagC := true }
    (fun t => t.regS == 0xFF && t.pc == 0x8000 && nvdizc t == [false, false, false, false, false, false]) = true := by decide

theorem test_sec_FM_1 : after
    (put 0x1000 [0x38] start)
    (fun t => t.pc == 0x1001 && nvdizc t == [false, false, false, false, false, true]) = true := by decide

theorem test_sed_FM_2 : after
    (put 0x1000 [0xF8] start)
    (fun t => t.pc == 0x1001 && nvdizc t == [false, false, true, false, false, false]) = true := by decide

theorem test_sei_FM_3 : after
    (put 0x1000 [0x78] start)
    (fun t => t.pc == 0x1001 && nvdizc t == [false, false, false, true, false, false]) = true := by decide

theorem test_clc_FM_4 : after
    { put 0x1000 [0x18] start with flagN := true, flagV := true, flagD := true, flagI := true, flagZ := true, flagC := true }
    (fun t => t.pc == 0x1001 && nvdizc t == [true, true, true, true, true, false]) = true := by decide

theorem test_cld_FM_5 : after
    { put 0x1000 [0xD8] start with flagN := true, flagV := true, flagD := true, flagI := true, flagZ := true, flagC := true }
    (fun t => t.pc == 0x1001 && nvdizc t == [true, true, false, true, true, true]) = true := by decide

theorem test_cli_FM_6 : after
    { put 0x1000 [0x58] start with flagN := true, flagV := true, flagD := true, flagI := true, flagZ := true, flagC := true }
    (fun t => t.pc == 0x1001 && nvdizc t == [true, true, true, false, true, true]) = true := by decide

theorem test_clv_FM_7 : after
    { put 0x1000 [0xB8] start with flagN := true, flagV := true, flagD := true, flagI := true, flagZ := true, flagC := true }
    (fun t => t.pc == 0x1001 && nvdizc t == [true, false, true, true, true, true]) = true := by decide

theorem test_nop_FM_8 : after
    { put 0x1000 [0xEA] start with regA := 0x01, regX := 0x02, regY := 0x03, flagN := true, flagD := true, flagZ := true }
    (fun t => t.pc == 0x1001 && nvdizc t == [true, false, true, false, true, false]) = true := by decide

theorem test_brk_FM_9 : after
    { put 0xFFFE [0x00, 0x90] (put 0x1000 [0x00] start) with flagN := true, flagC := true }
    (fun t => t.regS == 0xFC && t.pc == 0x9000 && nvdizc t == [true, false, false, true, false, true] &&
      has t 0x01FF 0x10 && has t 0x01FE 0x02 && has t 0x01FD 0xB1) = true := by decide

theorem test_brk_FM_10 : after
    { put 0xFFFE [0x34, 0x12] (put 0x1000 [0x00] start) with regS := 0x01, flagD := true }
    (fun t => t.regS == 0xFE && t.pc == 0x1234 && nvdizc t == [false, false, true, true, false, false] &&
      has t 0x0101 0x10 && has t 0x0100 0x02 && has t 0x01FF 0x38) = true := by decide

theorem test_brk_FM_11 : after
    { put 0xFFFE [0x34, 0x12] (put 0x1000 [0x00] start) with regS := 0x01, flagD := true, params := { Config.vectorParams with intClearsD := true } }
    (fun t => t.regS == 0xFE && t.pc == 0x1234 && nvdizc t == [false, false, false, true, false, false] &&
      has t 0x0101 0x10 && has t 0x0100 0x02 && has t 0x01FF 0x38) = true := by decide

theorem test_undefined_FM_13 : faultsWith (put 0x1000 [0x02] start) (.undefinedOpcode 0x02) = true := by decide

theorem test_undefined_FM_14 : faultsWith (put 0x1000 [0xFF] start) (.undefinedOpcode 0xFF) = true := by decide

/-! ### Interrupts, reset, the memory map, runs -/

/-- IRQ and BRK at 9000, NMI at A000, `HW_INTERRUPTS` (95_test_vectors.md section 2.12, "Common memory"). -/
def wired : State :=
  { put 0xFFFE [0x00, 0x90] (put 0xFFFA [0x00, 0xA0] (put 0x1000 [0xEA, 0xEA] start)) with
    params := { Config.vectorParams with hwInterrupts := true } }

/-- V-IN-1, boundary 2. -/
theorem test_irq_entry_IN_1 : after { wired with flagN := true, flagC := true, pc := 0x1001, irqLine := true }
    (fun t => t.regS == 0xFC && t.pc == 0x9000 && t.iPoll && nvdizc t == [true, false, false, true, false, true] &&
      has t 0x01FF 0x10 && has t 0x01FE 0x01 && has t 0x01FD 0xA1) = true := by decide

/-- V-IN-2, boundary 1: masked. -/
theorem test_irq_masked_IN_2 : after { wired with flagI := true, iPoll := true, irqLine := true }
    (fun t => t.regS == 0xFF && t.pc == 0x1001 && t.iPoll) = true := by decide

/-- V-IN-3, boundary 1: the NMI first, though I is 1. -/
theorem test_nmi_entry_IN_3 : after { wired with flagI := true, iPoll := true, irqLine := true, nmiPending := true }
    (fun t => t.regS == 0xFC && t.pc == 0xA000 && t.iPoll && !t.nmiPending && t.irqLine && has t 0x01FF 0x10 &&
      has t 0x01FE 0x00 && has t 0x01FD 0x24) = true := by decide

/-- V-IN-4, boundary 1: the boundary after CLI still uses the old I. -/
theorem test_cli_poll_IN_4 : after (put 0x1000 [0x58] { wired with flagI := true, iPoll := true, irqLine := true })
    (fun t => t.pc == 0x1001 && !t.flagI && t.iPoll) = true := by decide

/-- V-IN-5, boundary 1: and after SEI too. -/
theorem test_sei_poll_IN_5 : after (put 0x1000 [0x78] wired)
    (fun t => t.pc == 0x1001 && t.flagI && !t.iPoll) = true := by decide

/-- V-IN-7, boundary 3: the boundary after RTI uses the I it pulled. -/
theorem test_rti_poll_IN_7 : after
    (put 0x01FD [0x23, 0x00, 0x10] (put 0x9001 [0x40] { wired with pc := 0x9001, regS := 0xFC, flagI := true, iPoll := true }))
    (fun t => t.pc == 0x1000 && t.regS == 0xFF && !t.iPoll && nvdizc t == [false, false, false, false, true, true]) = true := by
  decide

/-- Without `HW_INTERRUPTS` no input is looked at (R37). -/
theorem test_inputs_ignored : after { wired with irqLine := true, nmiPending := true, params := Config.vectorParams }
    (fun t => t.pc == 0x1001 && t.nmiPending && t.irqLine) = true := by decide

/-- R260: reset takes PC from FFFC, sets I, clears the latch, writes no memory; D is cleared under `INT_CLEARS_D`. -/
theorem test_reset_sequence : after
    { put 0xFFFC [0x34, 0x12] wired with
      resetLine := true, nmiPending := true, flagD := true,
      params := { Config.vectorParams with hwInterrupts := true, intClearsD := true } }
    (fun t => t.pc == 0x1234 && t.flagI && !t.flagD && !t.nmiPending && t.iPoll &&
      t.mem == (put 0xFFFC [0x34, 0x12] wired).mem) = true := by decide

/-- R49: a map with every kind of address. -/
def mapped : State :=
  { start with params := { Config.vectorParams with
      memMap := [⟨0x2000, 0x20FF, .rom⟩, ⟨0x3000, 0x30FF, .device⟩, ⟨0x4000, 0x40FF, .absent⟩] } }

theorem test_rom_keeps : after (put 0x2000 [0x11] (put 0x1000 [0xEE, 0x00, 0x20] mapped))
    (fun t => t.pc == 0x1003 && has t 0x2000 0x11 && !t.flagZ) = true := by decide

theorem test_device_and_absent_refused :
    refusedWith (put 0x1000 [0xAD, 0xFF, 0x30] mapped) (.deviceAccess 0x30FF) = true ∧
    refusedWith (put 0x1000 [0x8D, 0x00, 0x40] mapped) (.absentAccess 0x4000) = true := by decide

/-- R57: a byte that nothing has written is the platform's, one and the same each time. -/
theorem test_unwritten_byte : after (put 0x1000 [0xA5, 0x10] start)
    (fun t => decide (t.mem = (put 0x1000 [0xA5, 0x10] start).mem)) = true ∧ byteAt start 0x0010 = Config.powerOnByte 0x0010 :=
  ⟨by decide, rfl⟩

theorem test_marked_state_does_not_step : faultsWith { start with faultMark := true } .runFaulted = true := by decide

/-- R268: at `END_PC` the run has ended; elsewhere it goes on. -/
theorem test_end_pc : atEnd { start with params := { Config.vectorParams with endPc := some 0x1000 } } = true ∧
    atEnd { start with params := { Config.vectorParams with endPc := some 0x1001 } } = false ∧ atEnd start = false := by
  decide

/-- R15, R81: the fault changes no state, so the moves made at its boundary stand in the state that is marked. -/
theorem test_fault_keeps_moves :
    runWith [[.driveIrq true]] { put 0x1000 [0x02] wired with flagI := true, iPoll := true } =
      .faulted { put 0x1000 [0x02] wired with flagI := true, iPoll := true, irqLine := true, faultMark := true }
        (.undefinedOpcode 0x02) := by decide

/-- R49: and in the state that a refused run reports. -/
theorem test_refusal_keeps_moves :
    runWith [[.driveReset true]] { mapped with params := { mapped.params with memMap := [⟨0xFFFC, 0xFFFD, .absent⟩] } } =
      .refused { mapped with params := { mapped.params with memMap := [⟨0xFFFC, 0xFFFD, .absent⟩] }, resetLine := true }
        (.absentAccess 0xFFFC) := by decide

/-- R224: a second edge while the latch is set is lost; R225: reset is a level. -/
theorem test_platform_moves : platformMove (platformMove wired .nmiEdge) .nmiEdge = platformMove wired .nmiEdge ∧
    (platformMove wired (.driveIrq true)).irqLine = true ∧ (platformMove start (.driveIrq true)).irqLine = false ∧
    (platformMove start (.driveReset true)).resetLine = true := by decide

/-! ### Witnesses: values that meet the hypotheses of each claim -/

theorem witness_EncodeInvertsDecode : decode [0xAD, 0xFF, 0x00, 0x02] = .ok (.ldaAbs 0x00FF, [0x02]) := rfl

/-- `LDA $FFFF,Y` at FFFE: the fetch wraps at 65536. -/
def atTop : State := { put 0xFFFE [0xB9, 0xFF, 0xFF] start with pc := 0xFFFE, regY := 0x02 }

theorem witness_StepRunsDecodedInstruction :
    atTop.faultMark = false ∧ atTop.resetLine = false ∧ Claims.NothingDue atTop ∧
    (∀ k : Nat, k < (Instr.ldaAbsY 0xFFFF).length → atTop.isPlain (atTop.pc + BitVec.ofNat 16 k) = true) ∧
    decode [byteAt atTop atTop.pc, byteAt atTop (atTop.pc + 1), byteAt atTop (atTop.pc + 2)] = .ok (.ldaAbsY 0xFFFF, []) :=
  ⟨rfl, rfl, .inl rfl, fun _ _ => rfl, rfl⟩

/-- `NothingDue` under `HW_INTERRUPTS`: no line up; a line up but masked. -/
theorem witness_NothingDue : Claims.NothingDue wired ∧ Claims.NothingDue { wired with irqLine := true, iPoll := true } :=
  ⟨.inr ⟨rfl, .inl rfl⟩, .inr ⟨rfl, .inr rfl⟩⟩

theorem witness_UndefinedOpcodeFaults :
    (put 0x1000 [0xFF] start).faultMark = false ∧ (put 0x1000 [0xFF] start).resetLine = false ∧
    Claims.NothingDue (put 0x1000 [0xFF] start) ∧ (put 0x1000 [0xFF] start).isPlain 0x1000 = true ∧
    (byteAt (put 0x1000 [0xFF] start) 0x1000).toNat ∈ Claims.undefinedOpcodes ∧
    (put 0x1000 [0xFF] start).params.endPc ≠ some (put 0x1000 [0xFF] start).pc :=
  ⟨rfl, rfl, .inl rfl, rfl, by decide, by decide⟩

theorem witness_MarkedRunDoesNotContinue : { start with faultMark := true }.faultMark = true ∧
    { start with params := { Config.vectorParams with endPc := some 0x1000 } }.faultMark = false ∧
    { start with params := { Config.vectorParams with endPc := some 0x1000 } }.params.endPc = some 0x1000 :=
  ⟨rfl, rfl, rfl⟩

theorem witness_FetchWordIsRun : decodeTableWord 24 0x1234AD = some (.ldaAbs 0x1234) ∧
    { start with pc := 0xFFFF }.isPlain 0xFFFF = true ∧ { start with pc := 0xFFFF }.isPlain (0xFFFF + 1) = true ∧
    { start with pc := 0xFFFF }.isPlain (0xFFFF + 2) = true := ⟨by decide, rfl, rfl, rfl⟩

/-- Both sums at the end of zero page. -/
theorem witness_ImmediateAndZeroPageModes : (0x00FF : Addr).toNat = (0xFF : Byte).toNat ∧
    (0x0000 : Addr).toNat = ((0xFF : Byte).toNat + { start with regX := 0x01 }.regX.toNat) % 256 ∧
    (0x00FE : Addr).toNat = ((0xFF : Byte).toNat + { start with regY := 0xFF }.regY.toNat) % 256 ∧
    (MemForm.zpX 0xFF).ea { start with regX := 0x01 } = .next 0x0000 := ⟨rfl, rfl, rfl, rfl⟩

/-- Both sums past FFFF. -/
theorem witness_AbsoluteModes :
    (0x0000 : Addr).toNat = ((0xFFFF : Addr).toNat + { start with regX := 0x01 }.regX.toNat) % 65536 ∧
    (0x00FE : Addr).toNat = ((0xFFFF : Addr).toNat + { start with regY := 0xFF }.regY.toNat) % 65536 ∧
    (MemForm.absX 0xFFFF).ea { start with regX := 0x01 } = .next 0x0000 ∧
    (0xFF00 : Addr).toNat = 256 * (0xFF : Byte).toNat + (0x00 : Byte).toNat ∧
    (∃ t, exec (.jsr 0xFF00) start = .next t) := ⟨rfl, rfl, rfl, rfl, _, rfl⟩

/-- Pointers at the end of zero page. -/
def pointers : State :=
  { put 0x00FF [0x34] (put 0x0000 [0x12] (put 0x2000 [0x05] start)) with regX := 0x01, regY := 0xCC }

theorem witness_IndirectModes : pointers.isPlain 0x00FF = true ∧ pointers.isPlain 0x0000 = true ∧
    (0x00FF : Addr).toNat = ((0xFE : Byte).toNat + pointers.regX.toNat) % 256 ∧
    (0x0000 : Addr).toNat = ((0xFE : Byte).toNat + pointers.regX.toNat + 1) % 256 ∧
    (0x1234 : Addr).toNat = 256 * (byteAt pointers 0x0000).toNat + (byteAt pointers 0x00FF).toNat ∧
    (0x00FF : Addr).toNat = (0xFF : Byte).toNat ∧ (0x0000 : Addr).toNat = ((0xFF : Byte).toNat + 1) % 256 ∧
    (0x1300 : Addr).toNat =
      (256 * (byteAt pointers 0x0000).toNat + (byteAt pointers 0x00FF).toNat + pointers.regY.toNat) % 65536 :=
  ⟨rfl, rfl, rfl, rfl, rfl, rfl, rfl, rfl⟩

/-- One address of each kind, at the ends of the regions. -/
theorem witness_address_kinds : mapped.kind 0x1FFF = .ram ∧ mapped.kind 0x2000 = .rom ∧ mapped.kind 0x20FF = .rom ∧
    mapped.kind 0x2100 = .ram ∧ mapped.kind 0x3000 = .device ∧ mapped.kind 0x30FF = .device ∧
    mapped.kind 0x4000 = .absent ∧ mapped.kind 0x40FF = .absent ∧ mapped.isPlain 0x20FF = true := by decide

theorem witness_loads : (0xA1, .ldaIndX 0xFE, .mem (.indX 0xFE)) ∈ Claims.ldaForms 0xFE 0 ∧
    (0xA9, .ldaImm 0x80, .imm 0x80) ∈ Claims.ldaForms 0x80 0 ∧
    (0xAE, .ldxAbs 0x2000, .mem (.abs 0x2000)) ∈ Claims.ldxForms 0 0x2000 ∧
    (0xB4, .ldyZpX 0xFE, .mem (.zpX 0xFE)) ∈ Claims.ldyForms 0xFE 0 ∧
    (ReadForm.mem (.indX 0xFE)).read (put 0x1234 [0x77] pointers) = .next 0x77 ∧
    (ReadForm.mem (.abs 0x2000)).read pointers = .next 0x05 ∧ (ReadForm.mem (.zpX 0xFE)).read pointers = .next 0x34 := by
  refine ⟨by simp [Claims.ldaForms], by simp [Claims.ldaForms], by simp [Claims.ldxForms], by simp [Claims.ldyForms],
    rfl, rfl, rfl⟩

/-- A store to `ram`, and one to `rom`. -/
theorem witness_stores : (0x91, .staIndY 0xFF, .indY 0xFF) ∈ Claims.staForms 0xFF 0 ∧
    (0x8E, .stxAbs 0x20FF, .abs 0x20FF) ∈ Claims.stxForms 0 0x20FF ∧
    (0x94, .styZpX 0xFF, .zpX 0xFF) ∈ Claims.styForms 0xFF 0 ∧
    (MemForm.indY 0xFF).ea pointers = .next 0x1300 ∧ pointers.isPlain 0x1300 = true ∧
    (MemForm.abs 0x20FF).ea mapped = .next 0x20FF ∧ mapped.isPlain 0x20FF = true ∧ mapped.isRam 0x20FF = false ∧
    (MemForm.zpX 0xFF).ea pointers = .next 0x0000 ∧ pointers.isPlain 0x0000 = true := by
  refine ⟨by simp [Claims.staForms], by simp [Claims.stxForms], by simp [Claims.styForms], rfl, rfl, rfl, rfl, rfl, rfl, rfl⟩

/-- The largest sum; and the two claims' decimal clause. -/
theorem witness_AdcAdds : (0x69, .adcImm 0xFF, .imm 0xFF) ∈ Claims.adcForms 0xFF 0 ∧
    (ReadForm.imm 0xFF).read { start with regA := 0xFF, flagC := true } = .next 0xFF ∧
    511 = (0xFF : Byte).toNat + (0xFF : Byte).toNat + (if true then 1 else 0) ∧ (0xFF : Byte).toNat = 511 % 256 ∧
    start.flagD = false ∧ { start with flagD := true }.flagD = true := by
  refine ⟨by simp [Claims.adcForms], rfl, rfl, rfl, rfl, rfl⟩

/-- The smallest difference. -/
theorem witness_SbcSubtracts : (0xE9, .sbcImm 0xFF, .imm 0xFF) ∈ Claims.sbcForms 0xFF 0 ∧
    (ReadForm.imm 0xFF).read start = .next 0xFF ∧
    (-256 : Int) = (start.regA.toNat : Int) - (0xFF : Byte).toNat - (if start.flagC then 0 else 1) ∧
    ((0x00 : Byte).toNat : Int) = (-256) % 256 ∧ start.flagD = false ∧ { start with flagD := true }.flagD = true := by
  refine ⟨by simp [Claims.sbcForms], rfl, by decide, by decide, rfl, rfl⟩

/-- 99 + 99 + 1 in decimal; and an invalid digit. -/
theorem witness_AdcDecimalAdds : (0x69, .adcImm 0x99, .imm 0x99) ∈ Claims.adcForms 0x99 0 ∧
    (ReadForm.imm 0x99).read { start with regA := 0x99, flagC := true, flagD := true } = .next 0x99 ∧
    (199 : Int) = (bcdValue 0x99 : Int) + bcdValue 0x99 + (if true then 1 else 0) ∧
    validBcd 0x99 = true ∧ validBcd 0x9A = false := by
  refine ⟨by simp [Claims.adcForms], rfl, by decide, by decide, by decide⟩

/-- 0 - 99 - 1 in decimal. -/
theorem witness_SbcDecimalSubtracts : (0xE9, .sbcImm 0x99, .imm 0x99) ∈ Claims.sbcForms 0x99 0 ∧
    (ReadForm.imm 0x99).read { start with flagD := true } = .next 0x99 ∧
    (-100 : Int) = (bcdValue 0x00 : Int) - bcdValue 0x99 - (if false then 0 else 1) ∧
    validBcd 0x00 = true ∧ validBcd 0x99 = true := by
  refine ⟨by simp [Claims.sbcForms], rfl, by decide, by decide, by decide⟩

theorem witness_SbcIsAdcOfComplement : start.flagD = false ∧ { start with flagC := true }.flagC = true := ⟨rfl, rfl⟩

/-- 7FFF + 0001: a carry between the bytes, and signed overflow. -/
theorem witness_CarryChainsTwoByteAddition :
    ∃ t v, { start with regA := 0xFF }.flagD = false ∧ { t with regA := 0x7F }.flagD = false ∧
      { start with regA := 0xFF }.flagC = false ∧ exec (.adcImm 0x01) { start with regA := 0xFF } = .next t ∧
      { t with regA := 0x7F }.flagC = t.flagC ∧ exec (.adcImm 0x00) { t with regA := 0x7F } = .next v ∧
      t.flagC = true ∧ v.flagV = true := ⟨_, _, rfl, rfl, rfl, rfl, rfl, rfl, by decide, by decide⟩

theorem witness_IncAndDecModifyMemory : (0xE6, .incZp 0xFF, .zp 0xFF, fun m => m + 1) ∈ Claims.incDecForms 0xFF 0 ∧
    (MemForm.zp 0xFF).ea pointers = .next 0x00FF ∧ pointers.isPlain 0x00FF = true := by
  refine ⟨by simp [Claims.incDecForms], rfl, rfl⟩

/-- FF + 1 and 00 - 1. -/
theorem witness_IndexIncrementAndDecrement : (0x00 : Byte).toNat = ({ start with regX := 0xFF }.regX.toNat + 1) % 256 ∧
    (0x00 : Byte).toNat = ({ start with regY := 0xFF }.regY.toNat + 1) % 256 ∧
    ((0xFF : Byte).toNat : Int) = ((start.regX.toNat : Int) - 1) % 256 ∧
    ((0xFF : Byte).toNat : Int) = ((start.regY.toNat : Int) - 1) % 256 := by decide

theorem witness_ShiftsOfTheAccumulator : (0x6A, .rorA, 255, true) ∈ Claims.accumulatorShifts
    { start with regA := 0xFF, flagC := true } ∧ (0xFF : Byte).toNat = 255 := by decide

theorem witness_ShiftsOfMemory :
    (0x26, .rolZp 0xFF, .zp 0xFF, 0x68, false) ∈ Claims.memoryShifts pointers 0xFF 0 (byteAt pointers 0x00FF) ∧
    (MemForm.zp 0xFF).ea pointers = .next 0x00FF ∧ pointers.isPlain 0x00FF = true ∧ (0x68 : Byte).toNat = 0x68 := by
  refine ⟨by decide, rfl, rfl, rfl⟩

theorem witness_LogicCombinesOperandWithA :
    (0x49, .eorImm 0xFF, .imm 0xFF, fun x y => x ^^^ y) ∈ Claims.logicForms 0xFF 0 ∧
    (ReadForm.imm 0xFF).read start = .next 0xFF := by
  refine ⟨by simp [Claims.logicForms], rfl⟩

/-- 00 - FF and, for CPX, 01 - 05. -/
theorem witness_CompareSetsFlagsOnly : (0xC9, .cmpImm 0xFF, .imm 0xFF, 0x00) ∈ Claims.compareForms start 0xFF 0 ∧
    (ReadForm.imm 0xFF).read start = .next 0xFF ∧
    ((0x01 : Byte).toNat : Int) = (((0x00 : Byte).toNat : Int) - (0xFF : Byte).toNat) % 256 ∧
    (0xEC, .cpxAbs 0x2000, .mem (.abs 0x2000), 0x01) ∈ Claims.compareForms pointers 0 0x2000 ∧
    (ReadForm.mem (.abs 0x2000)).read pointers = .next 0x05 ∧
    ((0xFC : Byte).toNat : Int) = (((0x01 : Byte).toNat : Int) - (0x05 : Byte).toNat) % 256 := by
  refine ⟨by decide, rfl, by decide, by decide, rfl, by decide⟩

/-- `BIT #` under both values of the parameter, and `BIT a`. -/
theorem witness_BitTestsTheOperand : (0x89, .bitImm 0xC0, .imm 0xC0, true) ∈ Claims.bitForms start 0xC0 0 ∧
    (0x89, .bitImm 0xC0, .imm 0xC0, false) ∈ Claims.bitForms
      { start with params := { Config.vectorParams with bitImmWritesNV := false } } 0xC0 0 ∧
    (0x2C, .bitAbs 0x2000, .mem (.abs 0x2000), true) ∈ Claims.bitForms pointers 0 0x2000 ∧
    (ReadForm.imm 0xC0).read start = .next 0xC0 ∧ (ReadForm.mem (.abs 0x2000)).read pointers = .next 0x05 := by
  refine ⟨by decide, by decide, by decide, rfl, rfl⟩

/-- Displacements 7F and 80, one branch taken and one not. -/
theorem witness_BranchesGoWhereTheDisplacementSays : (0xD0, .bne 0x7F, true) ∈ Claims.branchForms start 0x7F ∧
    (0xF0, .beq 0x80, false) ∈ Claims.branchForms start 0x80 := by decide

/-- S = 00: the push after it goes to 01FF. -/
theorem witness_PhaAndPhpPush : (0x48, .pha, 0xAB) ∈ Claims.pushForms { start with regA := 0xAB, regS := 0x00 } ∧
    (0x08, .php, 0x30) ∈ Claims.pushForms start ∧
    { start with regA := 0xAB, regS := 0x00 }.isPlain (stackAddr 0x00) = true ∧ start.isPlain (stackAddr 0xFF) = true := by
  refine ⟨by decide, by decide, rfl, rfl⟩

/-- S = FF: the pull comes from 0100. -/
def pulling : State := put 0x0100 [0xCF, 0x34, 0x12] start

theorem witness_pulls : pulling.isPlain (stackAddr (pulling.regS + 1)) = true ∧
    0xCF = byteAt pulling (stackAddr (pulling.regS + 1)) ∧ pulling.isPlain (stackAddr (pulling.regS + 2)) = true ∧
    0x34 = byteAt pulling (stackAddr (pulling.regS + 2)) ∧ pulling.isPlain (stackAddr (pulling.regS + 3)) = true ∧
    0x12 = byteAt pulling (stackAddr (pulling.regS + 3)) := ⟨rfl, rfl, rfl, rfl, rfl, rfl⟩

/-- RTI under `HW_INTERRUPTS` goes on. -/
theorem witness_RtsAndRtiReturn : wired.params.hwInterrupts = true ∧ ∃ t, exec .rti wired = .next t := ⟨rfl, _, rfl⟩

/-- `JMP (a)` at the end of a page, both ways; `JMP (a,x)` past FFFF. -/
def jumping (wrap : Bool) : State :=
  { put 0x1300 [0x56] (put 0x1200 [0x78] (put 0x12FF [0x34] start)) with
    params := { Config.vectorParams with jmpIndPageWrap := wrap } }

theorem witness_JumpsGoToTheirTargets :
    (jumping false).isPlain 0x12FF = true ∧ (jumping false).isPlain 0x1300 = true ∧ (jumping true).isPlain 0x1200 = true ∧
    (0x5634 : Addr).toNat = 256 * (byteAt (jumping false) 0x1300).toNat + (byteAt (jumping false) 0x12FF).toNat ∧
    (0x7834 : Addr).toNat = 256 * (byteAt (jumping true) 0x1200).toNat + (byteAt (jumping true) 0x12FF).toNat ∧
    (0x1300 : Addr).toNat = (if (jumping false).params.jmpIndPageWrap then 256 * ((0x12FF : Addr).toNat / 256) +
      ((0x12FF : Addr).toNat + 1) % 256 else ((0x12FF : Addr).toNat + 1) % 65536) ∧
    (0x1200 : Addr).toNat = (if (jumping true).params.jmpIndPageWrap then 256 * ((0x12FF : Addr).toNat / 256) +
      ((0x12FF : Addr).toNat + 1) % 256 else ((0x12FF : Addr).toNat + 1) % 65536) ∧
    (0x0000 : Addr).toNat = ((0xFFFF : Addr).toNat + pointers.regX.toNat) % 65536 ∧ (0x0001 : Addr) = 0x0000 + 1 ∧
    pointers.isPlain 0x0000 = true ∧ (put 0x0001 [0x80] pointers).isPlain 0x0001 = true ∧
    (0x8012 : Addr).toNat = 256 * (byteAt (put 0x0001 [0x80] pointers) 0x0001).toNat +
      (byteAt (put 0x0001 [0x80] pointers) 0x0000).toNat := by
  refine ⟨rfl, rfl, rfl, rfl, rfl, rfl, rfl, rfl, rfl, rfl, rfl, rfl⟩

/-- S = 00: the second byte pushed goes to 01FF. -/
theorem witness_calls : { start with regS := 0x00 }.isRam (stackAddr 0x00) = true ∧
    { start with regS := 0x00 }.isRam (stackAddr (0x00 - 1)) = true ∧
    { start with regS := 0x00 }.isRam (stackAddr (0x00 - 2)) = true ∧
    { start with regS := 0x00 }.isPlain (stackAddr 0x00) = true ∧
    { start with regS := 0x00 }.isPlain (stackAddr (0x00 - 1)) = true ∧
    (∃ t, exec (.jsr 0x3000) { start with regS := 0x00 } = .next t) ∧
    ∃ t, exec .brk { start with regS := 0x00 } = .next t := ⟨rfl, rfl, rfl, rfl, rfl, ⟨_, rfl⟩, ⟨_, rfl⟩⟩

theorem witness_entries : Claims.EntryPossible wired 0xFFFE ∧ Claims.EntryPossible wired 0xFFFA ∧
    Claims.EntryPossible { start with regS := 0x01 } 0xFFFE :=
  ⟨⟨rfl, rfl, rfl, rfl, rfl⟩, ⟨rfl, rfl, rfl, rfl, rfl⟩, ⟨rfl, rfl, rfl, rfl, rfl⟩⟩

/-- Each clause of the boundary's order. -/
theorem witness_BoundaryPriority : wired.faultMark = false ∧ { wired with resetLine := true }.resetLine = true ∧
    wired.resetLine = false ∧ wired.params.hwInterrupts = true ∧ { wired with nmiPending := true }.nmiPending = true ∧
    (∃ t, step { wired with nmiPending := true, irqLine := true } = .next t) ∧ wired.nmiPending = false ∧
    ({ wired with irqLine := true }.irqLine = true ∧ wired.iPoll = false) ∧ wired.irqLine = false ∧
    { wired with iPoll := true }.iPoll = true ∧ start.params.hwInterrupts = false :=
  ⟨rfl, rfl, rfl, rfl, rfl, ⟨_, rfl⟩, rfl, ⟨rfl, rfl⟩, rfl, rfl, rfl⟩

/-- The hypotheses of the NMI and the IRQ entry; `witness_entries` has the rest. -/
theorem witness_interrupts :
    ({ wired with nmiPending := true }.faultMark = false ∧ { wired with nmiPending := true }.resetLine = false ∧
      { wired with nmiPending := true }.params.hwInterrupts = true ∧ { wired with nmiPending := true }.nmiPending = true ∧
      Claims.EntryPossible { wired with nmiPending := true } 0xFFFA) ∧
    ({ wired with irqLine := true }.faultMark = false ∧ { wired with irqLine := true }.resetLine = false ∧
      { wired with irqLine := true }.params.hwInterrupts = true ∧ { wired with irqLine := true }.nmiPending = false ∧
      { wired with irqLine := true }.irqLine = true ∧ { wired with irqLine := true }.iPoll = false ∧
      Claims.EntryPossible { wired with irqLine := true } 0xFFFE) :=
  ⟨⟨rfl, rfl, rfl, rfl, ⟨rfl, rfl, rfl, rfl, rfl⟩⟩, ⟨rfl, rfl, rfl, rfl, rfl, rfl, ⟨rfl, rfl, rfl, rfl, rfl⟩⟩⟩

/-- One of the three that delay, and one that does not, with and without `HW_INTERRUPTS`. -/
theorem witness_MaskTakesEffectOneBoundaryLate : (∃ t, exec .cli wired = .next t) ∧ (∃ t, exec .nop start = .next t) ∧
    wired.params.hwInterrupts = true ∧ start.params.hwInterrupts = false := ⟨⟨_, rfl⟩, ⟨_, rfl⟩, rfl, rfl⟩

theorem witness_ResetSequence :
    { put 0xFFFC [0x34, 0x12] start with resetLine := true }.faultMark = false ∧
    { put 0xFFFC [0x34, 0x12] start with resetLine := true }.resetLine = true ∧
    { put 0xFFFC [0x34, 0x12] start with resetLine := true }.isPlain 0xFFFC = true ∧
    { put 0xFFFC [0x34, 0x12] start with resetLine := true }.isPlain 0xFFFD = true ∧
    (0x1234 : Addr).toNat = 256 * (byteAt { put 0xFFFC [0x34, 0x12] start with resetLine := true } 0xFFFD).toNat +
      (byteAt { put 0xFFFC [0x34, 0x12] start with resetLine := true } 0xFFFC).toNat := ⟨rfl, rfl, rfl, rfl, rfl⟩

/-- A store at the top of memory, from a canonical state; and a latch that stays set. -/
theorem witness_steps : Memory.wf (put 0x1000 [0x8D, 0xFF, 0xFF] start).mem ∧
    (∃ t, step (put 0x1000 [0x8D, 0xFF, 0xFF] start) = .next t) ∧
    ∃ t, step (put 0x1000 [0xEA] { start with nmiPending := true }) = .next t ∧ t.nmiPending = true :=
  ⟨by decide, ⟨_, rfl⟩, ⟨_, rfl, rfl⟩⟩

/-- NOP is in none of the lists; BRK and TXS with the parameter false; a shift in mode `A`. -/
theorem witness_frames : (∃ t, exec .nop start = .next t) ∧ Claims.writersOfZ.contains Instr.nop.mnemonic = false ∧
    (∃ t, exec .brk start = .next t) ∧ start.params.intClearsD = false ∧
    (∃ t, exec .txs { start with params := { Config.vectorParams with txsWritesNZ := false } } = .next t) ∧
    (∃ t, exec .aslA start = .next t) ∧ Instr.aslA.mode = .accumulator :=
  ⟨⟨_, rfl⟩, by decide, ⟨_, rfl⟩, rfl, ⟨_, rfl⟩, ⟨_, rfl⟩, rfl⟩

theorem witness_DecimalModeMattersToAdcAndSbcOnly : Instr.plp.mnemonic ∉ [Mnemonic.adc, .sbc, .php, .brk] ∧
    ∃ t, exec .plp pulling = .next t := ⟨by decide, _, rfl⟩

theorem witness_NoInstructionFaults : ∀ a, start.isPlain a = true := fun _ => rfl

end Sys2Proof.Tests
end

section
/-! PROOFS. Frames: which parts of the state each update, each shared operation and each instruction can write
(10_state.md R20 to R38, R42). The statements of what an instruction leaves unchanged are read off `exec_keeps`. -/

namespace Sys2Proof.Machine

/-- The parts of the state, one for each field of `State`. -/
inductive Part where
  | regA | regX | regY | regS | pc
  | flagN | flagV | flagD | flagI | flagZ | flagC
  | mem | irqLine | nmiPending | iPoll | resetLine | faultMark | draws | params

/-- The part is the same in `t` as in `s`. -/
def Part.Same (s t : State) : Part → Prop
  | .regA => t.regA = s.regA
  | .regX => t.regX = s.regX
  | .regY => t.regY = s.regY
  | .regS => t.regS = s.regS
  | .pc => t.pc = s.pc
  | .flagN => t.flagN = s.flagN
  | .flagV => t.flagV = s.flagV
  | .flagD => t.flagD = s.flagD
  | .flagI => t.flagI = s.flagI
  | .flagZ => t.flagZ = s.flagZ
  | .flagC => t.flagC = s.flagC
  | .mem => t.mem = s.mem
  | .irqLine => t.irqLine = s.irqLine
  | .nmiPending => t.nmiPending = s.nmiPending
  | .iPoll => t.iPoll = s.iPoll
  | .resetLine => t.resetLine = s.resetLine
  | .faultMark => t.faultMark = s.faultMark
  | .draws => t.draws = s.draws
  | .params => t.params = s.params

theorem Part.Same.refl (s : State) (q : Part) : q.Same s s := by
  cases q <;> rfl

theorem Part.Same.trans {s t u : State} {q : Part} (h : q.Same s t) (h' : q.Same t u) : q.Same s u := by
  cases q <;> exact Eq.trans h' h

/-- From `s` to `t` at most the parts in `ps` change. -/
def ChangesOnly (ps : List Part) (s t : State) : Prop :=
  ∀ q, q ∉ ps → q.Same s t

namespace ChangesOnly

variable {ps qs : List Part} {s t u : State}

theorem refl (s : State) : ChangesOnly [] s s := fun q _ => Part.Same.refl s q

theorem mono (h : ChangesOnly ps s t) (hsub : ps ⊆ qs) : ChangesOnly qs s t :=
  fun q hq => h q fun hp => hq (hsub hp)

theorem trans (h : ChangesOnly ps s t) (h' : ChangesOnly qs t u) : ChangesOnly (ps ++ qs) s u :=
  fun q hq => (h q fun hp => hq (List.mem_append_left _ hp)).trans (h' q fun hp => hq (List.mem_append_right _ hp))

theorem ite {c : Prop} [Decidable c] (h : ChangesOnly ps s t) (h' : ChangesOnly ps s u) :
    ChangesOnly ps s (if c then t else u) := by
  split
  · exact h
  · exact h'

/-- An arm of `exec` that always goes on. -/
theorem of_next (h : (Host.Outcome.next u : Result State) = .next t) (hu : ChangesOnly ps s u) : ChangesOnly ps s t := by
  cases h
  exact hu

end ChangesOnly

/-! ### The updates of the state: part by part, from the lemmas of Laws/State about each field -/

theorem setMem_changesOnly (m : List Host.Cell) (s : State) : ChangesOnly [.mem] s (setMem m s) := by
  intro q hq; cases q <;> simp_all [Part.Same]

theorem setA_changesOnly (v : Byte) (s : State) : ChangesOnly [.regA] s (setA v s) := by
  intro q hq; cases q <;> simp_all [Part.Same]

theorem setX_changesOnly (v : Byte) (s : State) : ChangesOnly [.regX] s (setX v s) := by
  intro q hq; cases q <;> simp_all [Part.Same]

theorem setY_changesOnly (v : Byte) (s : State) : ChangesOnly [.regY] s (setY v s) := by
  intro q hq; cases q <;> simp_all [Part.Same]

theorem setS_changesOnly (v : Byte) (s : State) : ChangesOnly [.regS] s (setS v s) := by
  intro q hq; cases q <;> simp_all [Part.Same]

theorem setPC_changesOnly (a : Addr) (s : State) : ChangesOnly [.pc] s (setPC a s) := by
  intro q hq; cases q <;> simp_all [Part.Same]

theorem advance_changesOnly (len : Nat) (s : State) : ChangesOnly [.pc] s (advance len s) := by
  intro q hq; cases q <;> simp_all [Part.Same]

theorem setC_changesOnly (b : Bool) (s : State) : ChangesOnly [.flagC] s (setC b s) := by
  intro q hq; cases q <;> simp_all [Part.Same]

theorem setD_changesOnly (b : Bool) (s : State) : ChangesOnly [.flagD] s (setD b s) := by
  intro q hq; cases q <;> simp_all [Part.Same]

theorem setV_changesOnly (b : Bool) (s : State) : ChangesOnly [.flagV] s (setV b s) := by
  intro q hq; cases q <;> simp_all [Part.Same]

theorem setI_changesOnly (b : Bool) (s : State) : ChangesOnly [.flagI] s (setI b s) := by
  intro q hq; cases q <;> simp_all [Part.Same]

theorem setPoll_changesOnly (b : Bool) (s : State) : ChangesOnly [.iPoll] s (setPoll b s) := by
  intro q hq; cases q <;> simp_all [Part.Same]

theorem setNZ_changesOnly (v : Byte) (s : State) : ChangesOnly [.flagN, .flagZ] s (setNZ v s) := by
  intro q hq; cases q <;> simp_all [Part.Same]

theorem unpackP_changesOnly (v : Byte) (s : State) :
    ChangesOnly [.flagN, .flagV, .flagD, .flagI, .flagZ, .flagC] s (unpackP v s) := by
  intro q hq; cases q <;> simp_all [Part.Same]

theorem compareWith_changesOnly (r m : Byte) (s : State) :
    ChangesOnly [.flagC, .flagZ, .flagN] s (compareWith r m s) := by
  intro q hq; cases q <;> simp_all [Part.Same]

theorem testBits_changesOnly (w : Bool) (m : Byte) (s : State) :
    ChangesOnly [.flagZ, .flagN, .flagV] s (testBits w m s) := by
  intro q hq; cases q <;> simp_all [Part.Same]

theorem drawNVZ_changesOnly (s : State) : ChangesOnly [.flagN, .flagV, .flagZ, .draws] s (drawNVZ s) := by
  intro q hq; cases q <;> simp_all [Part.Same]

theorem drawACNVZ_changesOnly (s : State) :
    ChangesOnly [.regA, .flagC, .flagN, .flagV, .flagZ, .draws] s (drawACNVZ s) := by
  intro q hq; cases q <;> simp_all [Part.Same, drawACNVZ]

theorem addBinary_changesOnly (m : Byte) (s : State) :
    ChangesOnly [.regA, .flagC, .flagN, .flagV, .flagZ, .draws] s (addBinary m s) := by
  intro q hq; cases q <;> simp_all [Part.Same]

/-- What ADC writes in decimal mode: on valid digits A and C are computed, else drawn (R113). -/
theorem addDecimal_changesOnly (m : Byte) (s : State) :
    ChangesOnly [.regA, .flagC, .flagN, .flagV, .flagZ, .draws] s (addDecimal m s) := by
  unfold addDecimal
  split
  · exact (((setC_changesOnly _ s).trans (setA_changesOnly _ _)).trans (drawNVZ_changesOnly _)).mono (by simp)
  · exact drawACNVZ_changesOnly s

/-- What SBC writes in decimal mode (R114). -/
theorem subDecimal_changesOnly (m : Byte) (s : State) :
    ChangesOnly [.regA, .flagC, .flagN, .flagV, .flagZ, .draws] s (subDecimal m s) := by
  unfold subDecimal
  split
  · exact (((setC_changesOnly _ s).trans (setA_changesOnly _ _)).trans (drawNVZ_changesOnly _)).mono (by simp)
  · exact drawACNVZ_changesOnly s

/-! ### The shared operations -/

section Operations

variable {ps : List Part} {s t : State}

theorem withOperand_changesOnly {f : ReadForm} {e : Byte → State → State} (h : withOperand f e s = .next t)
    (he : ∀ m, ChangesOnly ps s (e m s)) : ChangesOnly (ps ++ [.pc]) s t := by
  obtain ⟨m, -, rfl⟩ := withOperand_eq_next.1 h
  exact (he m).trans (advance_changesOnly _ _)

theorem storeOperand_changesOnly {f : MemForm} {v : Byte} (h : storeOperand f v s = .next t) :
    ChangesOnly [.mem, .pc] s t := by
  obtain ⟨a, -, -, rfl⟩ := storeOperand_eq_next.1 h
  exact (setMem_changesOnly _ _).trans (advance_changesOnly _ _)

theorem modifyMemory_changesOnly {f : MemForm} {g : Byte → Byte} {e : Byte → State → State}
    (h : modifyMemory f g e s = .next t) (he : ∀ m u, ChangesOnly ps u (e m u)) :
    ChangesOnly ([.mem] ++ ps ++ [.flagN, .flagZ] ++ [.pc]) s t := by
  obtain ⟨a, -, -, rfl⟩ := modifyMemory_eq_next.1 h
  exact (((setMem_changesOnly _ _).trans (he _ _)).trans (setNZ_changesOnly _ _)).trans (advance_changesOnly _ _)

/-- What a shift writes: in mode `A` the accumulator and no memory (R66). -/
def shiftParts : ShiftForm → List Part
  | .acc => [.flagC, .regA, .flagN, .flagZ, .pc]
  | .mem _ => [.mem, .flagC, .flagN, .flagZ, .pc]

theorem modifyOperand_changesOnly {f : ShiftForm} {g : Byte → Byte} {c : Byte → Bool}
    (h : modifyOperand f g (fun m u => setC (c m) u) s = .next t) : ChangesOnly (shiftParts f) s t := by
  cases f with
  | acc =>
    exact .of_next h ((((setC_changesOnly _ s).trans (setA_changesOnly _ _)).trans (setNZ_changesOnly _ _)).trans
      (advance_changesOnly _ _))
  | mem f => exact modifyMemory_changesOnly h fun m => setC_changesOnly (c m)

theorem branch_changesOnly {cond : Bool} {disp : Byte} (h : branch cond disp s = .next t) :
    ChangesOnly [.pc] s t :=
  .of_next h (.ite (setPC_changesOnly _ s) (advance_changesOnly _ s))

theorem jump_changesOnly {r : Result Addr} (h : (andThen r fun target => .next (setPC target s)) = .next t) :
    ChangesOnly [.pc] s t := by
  obtain ⟨a, -, ht⟩ := andThen_eq_next.1 h
  exact .of_next ht (setPC_changesOnly a s)

theorem pushed_changesOnly (v : Byte) (s : State) : ChangesOnly [.mem, .regS] s (pushed v s) :=
  (setMem_changesOnly _ _).trans (setS_changesOnly _ _)

theorem pushAndAdvance_changesOnly {v : Byte} (h : (andThen (push v s) fun u => .next (advance 1 u)) = .next t) :
    ChangesOnly [.mem, .regS, .pc] s t := by
  obtain ⟨u, hu, ht⟩ := andThen_eq_next.1 h
  obtain ⟨-, rfl⟩ := push_eq_pushed.1 hu
  exact .of_next ht ((pushed_changesOnly v s).trans (advance_changesOnly 1 _))

/-- An instruction that pulls a byte and goes on with it: S is written, and what it does with the byte. -/
theorem pullAndThen_changesOnly {k : Byte × State → State} (h : (andThen (pull s) fun p => .next (k p)) = .next t)
    (hk : ∀ p, ChangesOnly ps p.2 (k p)) : ChangesOnly ([.regS] ++ ps) s t := by
  obtain ⟨p, hp, ht⟩ := andThen_eq_next.1 h
  obtain ⟨-, rfl⟩ := pull_eq_next.1 hp
  exact .of_next ht ((setS_changesOnly _ s).trans (hk _))

theorem execJsr_changesOnly {w : Addr} (h : execJsr w s = .next t) :
    ChangesOnly [.mem, .regS, .mem, .regS, .pc] s t := by
  obtain ⟨u, hu, ht⟩ := andThen_eq_next.1 h
  obtain ⟨-, -, rfl⟩ := pushPair_eq_next.1 hu
  exact .of_next ht (((pushed_changesOnly _ s).trans (pushed_changesOnly _ _)).trans (setPC_changesOnly w _))

theorem execRts_changesOnly (h : execRts s = .next t) : ChangesOnly [.regS, .pc] s t := by
  obtain ⟨p, hp, ht⟩ := andThen_eq_next.1 h
  obtain ⟨-, -, rfl⟩ := pullPair_eq_next.1 hp
  exact .of_next ht ((setS_changesOnly _ s).trans (setPC_changesOnly _ _))

theorem returnFromInterrupt_changesOnly (h : returnFromInterrupt s = .next t) :
    ChangesOnly [.regS, .flagN, .flagV, .flagD, .flagI, .flagZ, .flagC, .regS, .pc] s t := by
  obtain ⟨-, -, -, rfl⟩ := returnFromInterrupt_eq_next.1 h
  exact (((setS_changesOnly _ s).trans (unpackP_changesOnly _ _)).trans (setS_changesOnly _ _)).trans
    (setPC_changesOnly _ _)

/-- What an exception entry writes: D only under `INT_CLEARS_D` (R228, R234). -/
def entryParts (p : Params) : List Part :=
  if p.intClearsD then [.mem, .regS, .flagI, .pc, .iPoll, .flagD] else [.mem, .regS, .flagI, .pc, .iPoll]

theorem takeInterrupt_changesOnly {vec : Addr} {b : Bool} {ret : Addr} (h : takeInterrupt vec b ret s = .next t) :
    ChangesOnly (entryParts s.params) s t := by
  obtain ⟨-, -, -, -, -, rfl⟩ := takeInterrupt_eq_next.1 h
  intro q hq
  cases hp : s.params.intClearsD <;> cases q <;> simp_all [Part.Same, entryParts]

/-- What TXS writes: N and Z only under `TXS_WRITES_NZ` (R175). -/
def txsParts (p : Params) : List Part :=
  if p.txsWritesNZ then [.regS, .flagN, .flagZ, .pc] else [.regS, .pc]

theorem execTxs_changesOnly (h : execTxs s = .next t) : ChangesOnly (txsParts s.params) s t := by
  refine .of_next h ?_
  unfold txsParts
  split
  · exact ((setS_changesOnly _ s).trans (setNZ_changesOnly _ _)).trans (advance_changesOnly 1 _)
  · exact (setS_changesOnly _ s).trans (advance_changesOnly 1 _)

/-! ### The operations that the forms of one mnemonic share -/

theorem loadA_changesOnly {f : ReadForm} (h : loadA f s = .next t) : ChangesOnly [.regA, .flagN, .flagZ, .pc] s t :=
  withOperand_changesOnly h fun _ => (setA_changesOnly _ s).trans (setNZ_changesOnly _ _)

theorem loadX_changesOnly {f : ReadForm} (h : loadX f s = .next t) : ChangesOnly [.regX, .flagN, .flagZ, .pc] s t :=
  withOperand_changesOnly h fun _ => (setX_changesOnly _ s).trans (setNZ_changesOnly _ _)

theorem loadY_changesOnly {f : ReadForm} (h : loadY f s = .next t) : ChangesOnly [.regY, .flagN, .flagZ, .pc] s t :=
  withOperand_changesOnly h fun _ => (setY_changesOnly _ s).trans (setNZ_changesOnly _ _)

theorem andWithA_changesOnly {f : ReadForm} (h : andWithA f s = .next t) :
    ChangesOnly [.regA, .flagN, .flagZ, .pc] s t :=
  withOperand_changesOnly h fun _ => (setA_changesOnly _ s).trans (setNZ_changesOnly _ _)

theorem orWithA_changesOnly {f : ReadForm} (h : orWithA f s = .next t) :
    ChangesOnly [.regA, .flagN, .flagZ, .pc] s t :=
  withOperand_changesOnly h fun _ => (setA_changesOnly _ s).trans (setNZ_changesOnly _ _)

theorem eorWithA_changesOnly {f : ReadForm} (h : eorWithA f s = .next t) :
    ChangesOnly [.regA, .flagN, .flagZ, .pc] s t :=
  withOperand_changesOnly h fun _ => (setA_changesOnly _ s).trans (setNZ_changesOnly _ _)

theorem addWithCarry_changesOnly {f : ReadForm} (h : addWithCarry f s = .next t) :
    ChangesOnly [.regA, .flagC, .flagN, .flagV, .flagZ, .draws, .pc] s t :=
  withOperand_changesOnly h fun m => .ite (addDecimal_changesOnly m s) (addBinary_changesOnly m s)

theorem subtractWithBorrow_changesOnly {f : ReadForm} (h : subtractWithBorrow f s = .next t) :
    ChangesOnly [.regA, .flagC, .flagN, .flagV, .flagZ, .draws, .pc] s t :=
  withOperand_changesOnly h fun m => .ite (subDecimal_changesOnly m s) (addBinary_changesOnly _ s)

theorem compareA_changesOnly {f : ReadForm} (h : compareA f s = .next t) :
    ChangesOnly [.flagC, .flagZ, .flagN, .pc] s t :=
  withOperand_changesOnly h fun m => compareWith_changesOnly _ m s

theorem compareX_changesOnly {f : ReadForm} (h : compareX f s = .next t) :
    ChangesOnly [.flagC, .flagZ, .flagN, .pc] s t :=
  withOperand_changesOnly h fun m => compareWith_changesOnly _ m s

theorem compareY_changesOnly {f : ReadForm} (h : compareY f s = .next t) :
    ChangesOnly [.flagC, .flagZ, .flagN, .pc] s t :=
  withOperand_changesOnly h fun m => compareWith_changesOnly _ m s

theorem storeA_changesOnly {f : MemForm} (h : storeA f s = .next t) : ChangesOnly [.mem, .pc] s t :=
  storeOperand_changesOnly h

theorem storeX_changesOnly {f : MemForm} (h : storeX f s = .next t) : ChangesOnly [.mem, .pc] s t :=
  storeOperand_changesOnly h

theorem storeY_changesOnly {f : MemForm} (h : storeY f s = .next t) : ChangesOnly [.mem, .pc] s t :=
  storeOperand_changesOnly h

theorem shiftLeft_changesOnly {f : ShiftForm} (h : shiftLeft f s = .next t) : ChangesOnly (shiftParts f) s t :=
  modifyOperand_changesOnly h

theorem shiftRight_changesOnly {f : ShiftForm} (h : shiftRight f s = .next t) : ChangesOnly (shiftParts f) s t :=
  modifyOperand_changesOnly h

theorem rotateLeft_changesOnly {f : ShiftForm} (h : rotateLeft f s = .next t) : ChangesOnly (shiftParts f) s t :=
  modifyOperand_changesOnly h

theorem rotateRight_changesOnly {f : ShiftForm} (h : rotateRight f s = .next t) : ChangesOnly (shiftParts f) s t :=
  modifyOperand_changesOnly h

theorem incrementMemory_changesOnly {f : MemForm} (h : incrementMemory f s = .next t) :
    ChangesOnly [.mem, .flagN, .flagZ, .pc] s t :=
  modifyMemory_changesOnly h fun _ => .refl

theorem decrementMemory_changesOnly {f : MemForm} (h : decrementMemory f s = .next t) :
    ChangesOnly [.mem, .flagN, .flagZ, .pc] s t :=
  modifyMemory_changesOnly h fun _ => .refl

end Operations

/-! ### The instructions -/

/-- Whether the rules list the instruction among the writers of the part (R20 to R31, R42). TXS and BRK are writers of N, Z and
of D under a parameter only (R175, R234); a shift in mode `A` writes A and no memory (R66). No instruction writes what the
platform drives, the parameters or the fault mark. -/
def writes (p : Params) (i : Instr) : Part → Bool
  | .regA => i.mnemonic ∈ [.lda, .adc, .sbc, .and, .ora, .eor, .txa, .tya, .pla] || i.mode = .accumulator
  | .regX => i.mnemonic ∈ [.ldx, .tax, .tsx, .inx, .dex]
  | .regY => i.mnemonic ∈ [.ldy, .tay, .iny, .dey]
  | .regS => i.mnemonic ∈ [.txs, .pha, .php, .pla, .plp, .jsr, .rts, .rti, .brk]
  | .pc => true
  | .flagC => i.mnemonic ∈ [.adc, .sbc, .asl, .rol, .lsr, .ror, .cmp, .cpx, .cpy, .sec, .clc, .plp, .rti]
  | .flagI => i.mnemonic ∈ [.sei, .cli, .brk, .plp, .rti]
  | .flagD => i.mnemonic ∈ [.sed, .cld, .plp, .rti] || (p.intClearsD && i = .brk)
  | .flagV => i.mnemonic ∈ [.adc, .sbc, .bit, .clv, .plp, .rti]
  | .flagZ | .flagN => i.mnemonic ∈ Claims.writersOfZ || (p.txsWritesNZ && i = .txs)
  | .mem => i.mnemonic ∈ [.sta, .stx, .sty, .inc, .dec, .asl, .lsr, .rol, .ror, .pha, .php, .jsr, .brk] &&
      i.mode ≠ .accumulator
  | .draws => i.mnemonic ∈ [.adc, .sbc]
  | .iPoll => i.mnemonic ∈ [.cli, .sei, .plp, .brk]
  | .irqLine | .nmiPending | .resetLine | .faultMark | .params => false

/-- What an instruction that goes on has changed is a list of parts that it is listed as a writer of. -/
theorem exec_changesOnly {i : Instr} {s t : State} (h : exec i s = .next t) :
    ∃ ps, ChangesOnly ps s t ∧ ps.all (writes s.params i) = true := by
  cases i <;> simp only [exec] at h
  case ldaImm | ldaZp | ldaZpX | ldaAbs | ldaAbsX | ldaAbsY | ldaIndX | ldaIndY => exact ⟨_, loadA_changesOnly h, rfl⟩
  case ldxImm | ldxZp | ldxZpY | ldxAbs | ldxAbsY => exact ⟨_, loadX_changesOnly h, rfl⟩
  case ldyImm | ldyZp | ldyZpX | ldyAbs | ldyAbsX => exact ⟨_, loadY_changesOnly h, rfl⟩
  case staZp | staZpX | staAbs | staAbsX | staAbsY | staIndX | staIndY => exact ⟨_, storeA_changesOnly h, rfl⟩
  case stxZp | stxZpY | stxAbs => exact ⟨_, storeX_changesOnly h, rfl⟩
  case styZp | styZpX | styAbs => exact ⟨_, storeY_changesOnly h, rfl⟩
  case adcImm | adcZp | adcZpX | adcAbs | adcAbsX | adcAbsY | adcIndX | adcIndY =>
    exact ⟨_, addWithCarry_changesOnly h, rfl⟩
  case sbcImm | sbcZp | sbcZpX | sbcAbs | sbcAbsX | sbcAbsY | sbcIndX | sbcIndY =>
    exact ⟨_, subtractWithBorrow_changesOnly h, rfl⟩
  case incZp | incZpX | incAbs | incAbsX => exact ⟨_, incrementMemory_changesOnly h, rfl⟩
  case decZp | decZpX | decAbs | decAbsX => exact ⟨_, decrementMemory_changesOnly h, rfl⟩
  case aslA | aslZp | aslZpX | aslAbs | aslAbsX => exact ⟨_, shiftLeft_changesOnly h, rfl⟩
  case lsrA | lsrZp | lsrZpX | lsrAbs | lsrAbsX => exact ⟨_, shiftRight_changesOnly h, rfl⟩
  case rolA | rolZp | rolZpX | rolAbs | rolAbsX => exact ⟨_, rotateLeft_changesOnly h, rfl⟩
  case rorA | rorZp | rorZpX | rorAbs | rorAbsX => exact ⟨_, rotateRight_changesOnly h, rfl⟩
  case andImm | andZp | andZpX | andAbs | andAbsX | andAbsY | andIndX | andIndY =>
    exact ⟨_, andWithA_changesOnly h, rfl⟩
  case oraImm | oraZp | oraZpX | oraAbs | oraAbsX | oraAbsY | oraIndX | oraIndY =>
    exact ⟨_, orWithA_changesOnly h, rfl⟩
  case eorImm | eorZp | eorZpX | eorAbs | eorAbsX | eorAbsY | eorIndX | eorIndY =>
    exact ⟨_, eorWithA_changesOnly h, rfl⟩
  case cmpImm | cmpZp | cmpZpX | cmpAbs | cmpAbsX | cmpAbsY | cmpIndX | cmpIndY =>
    exact ⟨_, compareA_changesOnly h, rfl⟩
  case cpxImm | cpxZp | cpxAbs => exact ⟨_, compareX_changesOnly h, rfl⟩
  case cpyImm | cpyZp | cpyAbs => exact ⟨_, compareY_changesOnly h, rfl⟩
  case bitImm | bitZp | bitAbs => exact ⟨_, withOperand_changesOnly h fun m => testBits_changesOnly _ m s, rfl⟩
  case bcc | bcs | beq | bmi | bne | bpl | bvc | bvs => exact ⟨_, branch_changesOnly h, rfl⟩
  case tax | tsx | inx | dex =>
    exact ⟨_, .of_next h (((setX_changesOnly _ s).trans (setNZ_changesOnly _ _)).trans (advance_changesOnly 1 _)), rfl⟩
  case tay | iny | dey =>
    exact ⟨_, .of_next h (((setY_changesOnly _ s).trans (setNZ_changesOnly _ _)).trans (advance_changesOnly 1 _)), rfl⟩
  case txa | tya =>
    exact ⟨_, .of_next h (((setA_changesOnly _ s).trans (setNZ_changesOnly _ _)).trans (advance_changesOnly 1 _)), rfl⟩
  case txs =>
    refine ⟨_, execTxs_changesOnly h, ?_⟩
    cases hp : s.params.txsWritesNZ <;> simp [txsParts, writes, Instr.mnemonic, hp]
  case pha | php => exact ⟨_, pushAndAdvance_changesOnly h, rfl⟩
  case pla =>
    exact ⟨_, pullAndThen_changesOnly h fun p =>
      ((setA_changesOnly p.1 p.2).trans (setNZ_changesOnly p.1 _)).trans (advance_changesOnly 1 _), rfl⟩
  case plp =>
    exact ⟨_, pullAndThen_changesOnly h fun p =>
      ((unpackP_changesOnly p.1 p.2).trans (setPoll_changesOnly s.flagI _)).trans (advance_changesOnly 1 _), rfl⟩
  case jmpAbs w => exact ⟨_, .of_next h (setPC_changesOnly w s), rfl⟩
  case jmpInd | jmpIndAbsX => exact ⟨_, jump_changesOnly h, rfl⟩
  case jsr => exact ⟨_, execJsr_changesOnly h, rfl⟩
  case rts => exact ⟨_, execRts_changesOnly h, rfl⟩
  case rti => exact ⟨_, returnFromInterrupt_changesOnly h, rfl⟩
  case sec | clc => exact ⟨_, .of_next h ((setC_changesOnly _ s).trans (advance_changesOnly 1 _)), rfl⟩
  case sed | cld => exact ⟨_, .of_next h ((setD_changesOnly _ s).trans (advance_changesOnly 1 _)), rfl⟩
  case sei | cli =>
    exact ⟨_, .of_next h (((setI_changesOnly _ s).trans (setPoll_changesOnly s.flagI _)).trans
      (advance_changesOnly 1 _)), rfl⟩
  case clv => exact ⟨_, .of_next h ((setV_changesOnly _ s).trans (advance_changesOnly 1 _)), rfl⟩
  case nop => exact ⟨_, .of_next h (advance_changesOnly 1 s), rfl⟩
  case brk =>
    refine ⟨_, takeInterrupt_changesOnly h, ?_⟩
    cases hp : s.params.intClearsD <;> simp [entryParts, writes, Instr.mnemonic, Instr.mode, hp]

/-- An instruction that goes on leaves every part unchanged that it is not listed as a writer of. -/
theorem exec_keeps {i : Instr} {s t : State} (h : exec i s = .next t) {q : Part} (hq : writes s.params i q = false) :
    q.Same s t := by
  obtain ⟨ps, hchanges, hall⟩ := exec_changesOnly h
  refine hchanges q fun hmem => ?_
  have hwrites := List.all_eq_true.1 hall q hmem
  simp [hq] at hwrites

end Sys2Proof.Machine
end

section
/-! PROOFS. The status byte as a number, and its bits (10_state.md R32). -/

namespace Sys2Proof.Machine

theorem bit_le_one (b : Bool) : bit b ≤ 1 := by
  cases b <;> decide

/-- Bit `k` of a byte is `b` if the quotient by `2 ^ k` has the parity of `b`. -/
theorem getLsbD_eq_of_div {v : Byte} {k : Nat} {b : Bool} (h : v.toNat / 2 ^ k % 2 = bit b) : v.getLsbD k = b := by
  rw [BitVec.getLsbD, Nat.testBit_eq_decide_div_mod_eq, h]
  cases b <;> rfl

/-- The status byte as a number: it fits in eight bits, so nothing is lost. -/
theorem packP_toNat (b : Bool) (s : State) :
    (packP b s).toNat = 128 * bit s.flagN + 64 * bit s.flagV + 32 + 16 * bit b + 8 * bit s.flagD + 4 * bit s.flagI +
      2 * bit s.flagZ + bit s.flagC := by
  have hN := bit_le_one s.flagN
  have hV := bit_le_one s.flagV
  have hb := bit_le_one b
  have hD := bit_le_one s.flagD
  have hI := bit_le_one s.flagI
  have hZ := bit_le_one s.flagZ
  have hC := bit_le_one s.flagC
  rw [packP, BitVec.toNat_ofNat]
  omega

/-- `PackP` from bit 7 to bit 0: N V 1 b D I Z C (R32). -/
theorem packP_bits (b : Bool) (s : State) :
    (packP b s).getLsbD 7 = s.flagN ∧ (packP b s).getLsbD 6 = s.flagV ∧ (packP b s).getLsbD 5 = true ∧
      (packP b s).getLsbD 4 = b ∧ (packP b s).getLsbD 3 = s.flagD ∧ (packP b s).getLsbD 2 = s.flagI ∧
      (packP b s).getLsbD 1 = s.flagZ ∧ (packP b s).getLsbD 0 = s.flagC := by
  have hV := bit_le_one s.flagV
  have hb := bit_le_one b
  have hD := bit_le_one s.flagD
  have hI := bit_le_one s.flagI
  have hZ := bit_le_one s.flagZ
  have hC := bit_le_one s.flagC
  have hN := bit_le_one s.flagN
  have h1 : bit true = 1 := rfl
  refine ⟨?_, ?_, ?_, ?_, ?_, ?_, ?_, ?_⟩ <;>
  · apply getLsbD_eq_of_div
    rw [packP_toNat]
    omega

/-- Pulling a status byte and pushing it again sets bits 5 and 4 and keeps the others (R32). -/
theorem packP_unpackP (v : Byte) (s : State) : packP true (unpackP v s) = v ||| 0x30 := by
  obtain ⟨hN, hV, h5, h4, hD, hI, hZ, hC⟩ := packP_bits true (unpackP v s)
  apply BitVec.eq_of_getLsbD_eq
  intro k hk
  rw [BitVec.getLsbD_or]
  interval_cases k
  · rw [hC]; simp
  · rw [hZ]; simp
  · rw [hI]; simp
  · rw [hD]; simp
  · rw [h4]; simp
  · rw [h5]; simp
  · rw [hV]; simp
  · rw [hN]; simp

/-- A pushed status byte has bits 5 and 4 set, so it is at least 0x30. -/
theorem le_packP_true (s : State) : 0x30 ≤ (packP true s).toNat := by
  have h1 : bit true = 1 := rfl
  rw [packP_toNat, h1]
  omega

/-- Settles O37: the bits from `packP_bits`, the way back from `packP_unpackP`; the record equation is `unpackP`
itself. -/
theorem statusByteLayout : Obligations.StatusByteLayout := by
  intro s b v
  exact ⟨packP_bits b s, rfl, packP_unpackP v s, le_packP_true s⟩

end Sys2Proof.Machine
end

section
/-! PROOFS. The state after reset, and what instructions and steps leave unchanged (10_state.md R20 to R42). -/

namespace Sys2Proof.Machine

/-- Settles O53: each is a field of `State.reset`. -/
theorem resetStateIsAfterReset : Obligations.ResetStateIsAfterReset :=
  ⟨rfl, rfl, rfl, rfl, rfl⟩

/-- Settles O57: each clause is `exec_keeps` for one flag, whose writers `writes` lists. -/
theorem flagsWrittenOnlyByListedInstructions : Obligations.FlagsWrittenOnlyByListedInstructions := by
  intro i s t h
  have keeps (q : Part) (hq : writes s.params i q = false) : q.Same s t := exec_keeps h hq
  refine ⟨fun hm => keeps .flagC ?_, fun hm => keeps .flagI ?_, fun hm hp => keeps .flagD ?_,
    fun hm => keeps .flagV ?_, fun hm hp => keeps .flagZ ?_, fun hm hp => keeps .flagN ?_⟩
  case refine_1 | refine_2 | refine_4 => exact decide_eq_false hm
  case refine_3 | refine_5 | refine_6 =>
    simp only [writes, Bool.or_eq_false_iff, Bool.and_eq_false_iff, decide_eq_false_iff_not]
    exact ⟨hm, hp⟩

/-- Settles O58: each clause is `exec_keeps` for one part, whose writers `writes` lists. -/
theorem registersAndMemoryWrittenOnlyByListedInstructions :
    Obligations.RegistersAndMemoryWrittenOnlyByListedInstructions := by
  intro i s t h
  have keeps (q : Part) (hq : writes s.params i q = false) : q.Same s t := exec_keeps h hq
  refine ⟨fun hm ha => keeps .regA ?_, fun hm => keeps .regX ?_, fun hm => keeps .regY ?_, fun hm => keeps .regS ?_,
    fun hm => byteAt_congr (keeps .mem ?_), fun hm => keeps .draws ?_, fun hm => keeps .iPoll ?_⟩
  case refine_1 =>
    simp only [writes, Bool.or_eq_false_iff, decide_eq_false_iff_not]
    exact ⟨hm, ha⟩
  case refine_5 =>
    simp only [writes, Bool.and_eq_false_iff, decide_eq_false_iff_not, not_not]
    exact hm
  case refine_2 | refine_3 | refine_4 | refine_6 | refine_7 => exact decide_eq_false hm

/-- What the processor owes to its inputs: it drives none of them, and the NMI latch it can only clear (R37, R223, R224). -/
def InputsKept (s t : State) : Prop :=
  t.irqLine = s.irqLine ∧ t.resetLine = s.resetLine ∧ t.params = s.params ∧ t.faultMark = s.faultMark ∧
    (t.nmiPending = true → s.nmiPending = true)

theorem InputsKept.trans {s t u : State} (h : InputsKept s t) (h' : InputsKept t u) : InputsKept s u := by
  obtain ⟨hirq, hreset, hparams, hmark, hnmi⟩ := h
  obtain ⟨hirq', hreset', hparams', hmark', hnmi'⟩ := h'
  exact ⟨hirq'.trans hirq, hreset'.trans hreset, hparams'.trans hparams, hmark'.trans hmark, hnmi ∘ hnmi'⟩

/-- The reset sequence clears the latch under `HW_INTERRUPTS` and leaves the other inputs alone (R260). -/
theorem takeReset_inputsKept {s t : State} (h : takeReset s = .next t) : InputsKept s t := by
  obtain ⟨-, -, rfl⟩ := takeReset_eq_next.1 h
  refine ⟨rfl, rfl, rfl, rfl, fun hnmi => ?_⟩
  change (if s.params.hwInterrupts then false else s.nmiPending) = true at hnmi
  split at hnmi
  · cases hnmi
  · exact hnmi

theorem takeInterrupt_inputsKept {vec ret : Addr} {b : Bool} {s t : State} (h : takeInterrupt vec b ret s = .next t) :
    InputsKept s t := by
  obtain ⟨-, -, -, -, -, rfl⟩ := takeInterrupt_eq_next.1 h
  simp [InputsKept]

/-- Taking an NMI clears the latch first (R224, R226). -/
theorem takeNmi_inputsKept {s t : State} (h : takeNmi s = .next t) : InputsKept s t :=
  InputsKept.trans (t := { s with nmiPending := false }) ⟨rfl, rfl, rfl, rfl, fun hnmi => nomatch hnmi⟩
    (takeInterrupt_inputsKept h)

/-- No instruction is a writer of an input. -/
theorem exec_inputsKept {i : Instr} {s t : State} (h : exec i s = .next t) : InputsKept s t :=
  ⟨exec_keeps h (q := .irqLine) rfl, exec_keeps h (q := .resetLine) rfl, exec_keeps h (q := .params) rfl,
    exec_keeps h (q := .faultMark) rfl, (exec_keeps h (q := .nmiPending) rfl).symm.trans⟩

theorem afterInstruction_inputsKept (i : Instr) (s : State) : InputsKept s (afterInstruction i s) := by
  unfold afterInstruction
  split <;> simp [InputsKept]

/-- Settles O56: a step is a reset, an NMI, an IRQ or one instruction, and each of them keeps the inputs. -/
theorem processorNeverDrivesItsInputs : Obligations.ProcessorNeverDrivesItsInputs := by
  intro s t h
  obtain ⟨-, ⟨-, hreset⟩ | ⟨-, -, hnmi⟩ | ⟨-, -, -, hirq⟩ | ⟨-, -, -, i, u, -, hexec, rfl⟩⟩ := step_eq_next h
  · exact takeReset_inputsKept hreset
  · exact takeNmi_inputsKept hnmi
  · exact takeInterrupt_inputsKept hirq
  · exact (exec_inputsKept hexec).trans (afterInstruction_inputsKept i u)

end Sys2Proof.Machine
end

section
/-! PROOFS. Memory: plain bytes and refused accesses (20_memory.md R47, R49), and the canonical form that every step keeps
(R40, notes/assumptions/5.md). -/

namespace Sys2Proof.Machine

/-! ### The canonical form: it is lost nowhere, because memory changes by writes of bytes alone -/

/-- From `s` to `t` memory keeps its canonical form, if it had it. -/
def KeepsCanonical (s t : State) : Prop := Memory.wf s.mem → Memory.wf t.mem

namespace KeepsCanonical

variable {s t u : State}

theorem of_mem_eq (h : t.mem = s.mem) : KeepsCanonical s t := fun hs => h ▸ hs

theorem trans (h : KeepsCanonical s t) (h' : KeepsCanonical t u) : KeepsCanonical s u := h' ∘ h

theorem of_memAfterWrite {a : Addr} {v : Byte} (h : t.mem = memAfterWrite a v s) : KeepsCanonical s t :=
  fun hs => h ▸ Memory.wf_memAfterWrite hs a v

end KeepsCanonical

section Operations

variable {s t : State}

theorem storeOperand_keepsCanonical {f : MemForm} {v : Byte} (h : storeOperand f v s = .next t) :
    KeepsCanonical s t := by
  obtain ⟨a, -, -, rfl⟩ := storeOperand_eq_next.1 h
  exact .of_memAfterWrite rfl

theorem modifyMemory_keepsCanonical {f : MemForm} {g : Byte → Byte} {e : Byte → State → State}
    (h : modifyMemory f g e s = .next t) (he : ∀ m u, (e m u).mem = u.mem) : KeepsCanonical s t := by
  obtain ⟨a, -, -, rfl⟩ := modifyMemory_eq_next.1 h
  exact .of_memAfterWrite (he _ _)

/-- A shift writes one byte, or in mode `A` none. -/
theorem modifyOperand_keepsCanonical {f : ShiftForm} {g : Byte → Byte} {c : Byte → Bool}
    (h : modifyOperand f g (fun m u => setC (c m) u) s = .next t) : KeepsCanonical s t := by
  cases f with
  | acc =>
    cases h
    exact .of_mem_eq rfl
  | mem f => exact modifyMemory_keepsCanonical h fun _ _ => rfl

theorem pushed_keepsCanonical (v : Byte) (s : State) : KeepsCanonical s (pushed v s) := .of_memAfterWrite rfl

theorem pushAndAdvance_keepsCanonical {v : Byte} (h : (andThen (push v s) fun u => .next (advance 1 u)) = .next t) :
    KeepsCanonical s t := by
  obtain ⟨u, hu, ht⟩ := andThen_eq_next.1 h
  obtain ⟨-, rfl⟩ := push_eq_pushed.1 hu
  cases ht
  exact pushed_keepsCanonical v s

theorem execJsr_keepsCanonical {w : Addr} (h : execJsr w s = .next t) : KeepsCanonical s t := by
  obtain ⟨u, hu, ht⟩ := andThen_eq_next.1 h
  obtain ⟨-, -, rfl⟩ := pushPair_eq_next.1 hu
  cases ht
  exact (pushed_keepsCanonical _ s).trans (pushed_keepsCanonical _ _)

/-- An exception entry pushes three bytes, then changes flags alone (R228). -/
theorem entered_keepsCanonical (b : Bool) (ret : Addr) (s : State) : KeepsCanonical s (entered b ret s) :=
  (((pushed_keepsCanonical _ s).trans (pushed_keepsCanonical _ _)).trans (pushed_keepsCanonical _ _)).trans
    (.of_mem_eq ((clearDOnEntry_mem _).trans (setI_mem _ _)))

theorem takeInterrupt_keepsCanonical {vec ret : Addr} {b : Bool} (h : takeInterrupt vec b ret s = .next t) :
    KeepsCanonical s t := by
  obtain ⟨-, -, -, -, -, rfl⟩ := takeInterrupt_eq_next.1 h
  exact (entered_keepsCanonical b ret s).trans (.of_mem_eq ((setPoll_mem _ _).trans (setPC_mem _ _)))

/-- The reset sequence writes no memory (R260). -/
theorem takeReset_keepsCanonical (h : takeReset s = .next t) : KeepsCanonical s t := by
  obtain ⟨-, -, rfl⟩ := takeReset_eq_next.1 h
  exact .of_mem_eq rfl

theorem afterInstruction_keepsCanonical (i : Instr) (s : State) : KeepsCanonical s (afterInstruction i s) := by
  unfold afterInstruction
  split <;> exact .of_mem_eq rfl

/-! ### The operations that the forms of one mnemonic share, and the instructions -/

theorem storeA_keepsCanonical {f : MemForm} (h : storeA f s = .next t) : KeepsCanonical s t :=
  storeOperand_keepsCanonical h

theorem storeX_keepsCanonical {f : MemForm} (h : storeX f s = .next t) : KeepsCanonical s t :=
  storeOperand_keepsCanonical h

theorem storeY_keepsCanonical {f : MemForm} (h : storeY f s = .next t) : KeepsCanonical s t :=
  storeOperand_keepsCanonical h

theorem incrementMemory_keepsCanonical {f : MemForm} (h : incrementMemory f s = .next t) : KeepsCanonical s t :=
  modifyMemory_keepsCanonical h fun _ _ => rfl

theorem decrementMemory_keepsCanonical {f : MemForm} (h : decrementMemory f s = .next t) : KeepsCanonical s t :=
  modifyMemory_keepsCanonical h fun _ _ => rfl

theorem shiftLeft_keepsCanonical {f : ShiftForm} (h : shiftLeft f s = .next t) : KeepsCanonical s t :=
  modifyOperand_keepsCanonical h

theorem shiftRight_keepsCanonical {f : ShiftForm} (h : shiftRight f s = .next t) : KeepsCanonical s t :=
  modifyOperand_keepsCanonical h

theorem rotateLeft_keepsCanonical {f : ShiftForm} (h : rotateLeft f s = .next t) : KeepsCanonical s t :=
  modifyOperand_keepsCanonical h

theorem rotateRight_keepsCanonical {f : ShiftForm} (h : rotateRight f s = .next t) : KeepsCanonical s t :=
  modifyOperand_keepsCanonical h

end Operations

/-- The writers of memory go through a store, a read-modify-write or the stack; every other instruction keeps memory. -/
theorem exec_keepsCanonical {i : Instr} {s t : State} (h : exec i s = .next t) : KeepsCanonical s t := by
  by_cases hw : writes s.params i .mem = false
  · exact .of_mem_eq (exec_keeps h hw)
  · cases i <;> simp only [exec] at h
    case staZp | staZpX | staAbs | staAbsX | staAbsY | staIndX | staIndY => exact storeA_keepsCanonical h
    case stxZp | stxZpY | stxAbs => exact storeX_keepsCanonical h
    case styZp | styZpX | styAbs => exact storeY_keepsCanonical h
    case incZp | incZpX | incAbs | incAbsX => exact incrementMemory_keepsCanonical h
    case decZp | decZpX | decAbs | decAbsX => exact decrementMemory_keepsCanonical h
    case aslZp | aslZpX | aslAbs | aslAbsX => exact shiftLeft_keepsCanonical h
    case lsrZp | lsrZpX | lsrAbs | lsrAbsX => exact shiftRight_keepsCanonical h
    case rolZp | rolZpX | rolAbs | rolAbsX => exact rotateLeft_keepsCanonical h
    case rorZp | rorZpX | rorAbs | rorAbsX => exact rotateRight_keepsCanonical h
    case pha | php => exact pushAndAdvance_keepsCanonical h
    case jsr => exact execJsr_keepsCanonical h
    case brk => exact takeInterrupt_keepsCanonical h
    all_goals exact absurd rfl hw

/-- Settles O54: a step is a reset, an NMI, an IRQ or one instruction, and each of them keeps the canonical form. -/
theorem stepKeepsMemoryCanonical : Obligations.StepKeepsMemoryCanonical := by
  intro s t hwf h
  suffices hkeeps : KeepsCanonical s t from hkeeps hwf
  obtain ⟨-, ⟨-, hreset⟩ | ⟨-, -, hnmi⟩ | ⟨-, -, -, hirq⟩ | ⟨-, -, -, i, u, -, hexec, rfl⟩⟩ := step_eq_next h
  · exact takeReset_keepsCanonical hreset
  · exact takeInterrupt_keepsCanonical (s := { s with nmiPending := false }) hnmi
  · exact takeInterrupt_keepsCanonical hirq
  · exact (exec_keepsCanonical hexec).trans (afterInstruction_keepsCanonical i u)

/-- Settles O55: nothing has been written at reset. -/
theorem resetMemoryIsCanonical : Obligations.ResetMemoryIsCanonical := Memory.wf_reset

/-! ### Plain memory -/

theorem isRam_of_kind {s : State} {a : Addr} (h : s.kind a = .ram) : s.isRam a = true := by
  rw [State.isRam, h]; rfl

/-- A write to `rom` goes on and changes nothing (R47). -/
theorem memWrite_rom {s : State} {a : Addr} (h : s.kind a = .rom) (v : Byte) : memWrite a v s = .next s := by
  rw [memWrite, h]

/-- Settles O12: reads and writes by the laws of the two primitives, every other byte by `byteAt_memAfterWrite`. -/
theorem plainMemoryHoldsWhatIsWritten : Obligations.PlainMemoryHoldsWhatIsWritten := by
  intro s a v
  refine ⟨memRead_plain, fun hram => ?_, fun hrom => memWrite_rom hrom v⟩
  have hisRam := isRam_of_kind hram
  have hplain := isPlain_of_isRam hisRam
  have hbytes (x : Addr) : byteAt (setMem (memAfterWrite a v s) s) x = if x = a then v else byteAt s x := by
    simp [byteAt_memAfterWrite (setMem_mem _ s), hisRam]
  refine ⟨setMem (memAfterWrite a v s) s, memWrite_plain hplain, rfl, hbytes, ?_⟩
  rw [memRead_plain ((isPlain_setMem _ s a).trans hplain), hbytes, if_pos rfl]

/-! ### Refused accesses -/

/-- The refusal that the kind of an address calls for, if any (R49). -/
def refusalAt (s : State) (a : Addr) : Option Refusal :=
  match s.kind a with
  | .ram | .rom => none
  | .device => some (.deviceAccess a)
  | .absent => some (.absentAccess a)

theorem memRead_eq_refused {s : State} {a : Addr} {r : Refusal} :
    memRead a s = .refused r ↔ refusalAt s a = some r := by
  unfold memRead refusalAt
  cases s.kind a <;> simp

theorem memWrite_eq_refused {s : State} {a : Addr} {v : Byte} {r : Refusal} :
    memWrite a v s = .refused r ↔ refusalAt s a = some r := by
  unfold memWrite refusalAt
  cases s.kind a <;> simp

/-- An instruction that reads its operand at a refused address is refused. -/
theorem withOperand_refused {f : MemForm} {e : Byte → State → State} {s : State} {a : Addr} {r : Refusal}
    (hea : f.ea s = .next a) (hr : refusalAt s a = some r) : withOperand (.mem f) e s = .refused r := by
  rw [withOperand, ReadForm.read, hea, andThen_next, memRead_eq_refused.2 hr, andThen_refused]

/-- So is an instruction that stores there. -/
theorem storeOperand_refused {f : MemForm} {v : Byte} {s : State} {a : Addr} {r : Refusal}
    (hea : f.ea s = .next a) (hr : refusalAt s a = some r) : storeOperand f v s = .refused r := by
  rw [storeOperand, hea, andThen_next, memWrite_eq_refused.2 hr, andThen_refused]

/-- A refused address is refused to both primitives, and to a load and a store of it. -/
theorem accesses_refused {s : State} {a : Addr} {r : Refusal} (hr : refusalAt s a = some r) (v : Byte) :
    memRead a s = .refused r ∧ memWrite a v s = .refused r ∧
      exec (.ldaAbs a) s = .refused r ∧ exec (.staAbs a) s = .refused r := by
  have hea : (MemForm.abs a).ea s = .next a := rfl
  refine ⟨memRead_eq_refused.2 hr, memWrite_eq_refused.2 hr, ?_, ?_⟩
  · rw [exec, execLdaAbs, loadA, withOperand_refused hea hr]
  · rw [exec, execStaAbs, storeA, storeOperand_refused hea hr]

/-- Settles O13: both kinds call for a refusal, which `accesses_refused` carries to the four accesses. -/
theorem deviceAndAbsentAccessIsRefused : Obligations.DeviceAndAbsentAccessIsRefused := by
  intro s a v
  constructor
  · intro hdevice
    exact accesses_refused (by rw [refusalAt, hdevice]) v
  · intro habsent
    exact accesses_refused (by rw [refusalAt, habsent]) v

end Sys2Proof.Machine
end

section
/-! PROOFS. The decoder and the encoder: each inverts the other, and the opcode map is total (30_encoding.md R60 to R85). -/

namespace Sys2Proof.Machine

/-! ### Rows -/

/-- The instruction is one of the row's, with these operand bytes: none, `b1`, or `b1` and `b2`, the low byte first (R61). -/
inductive RowHolds : Row → Instr → List Byte → Prop where
  | one (i : Instr) : RowHolds (.one i) i []
  | two (mk : Byte → Instr) (b1 : Byte) : RowHolds (.two mk) (mk b1) [b1]
  | three (mk : Addr → Instr) (w : Addr) : RowHolds (.three mk) (mk w) [loByte w, hiByte w]

theorem RowHolds.ofBytes (mk : Addr → Instr) (b1 b2 : Byte) :
    RowHolds (.three mk) (mk (joinBytes b2 b1)) [b1, b2] := by
  simpa using RowHolds.three mk (joinBytes b2 b1)

/-- What decodes is an opcode byte with a row, then the operand bytes of an instruction of that row (R60, R61). -/
theorem decode_eq_ok {bs rest : List Byte} {i : Instr} :
    decode bs = .ok (i, rest) ↔
      ∃ op row operand, bs = op :: operand ++ rest ∧ opcodeRow op = some row ∧ RowHolds row i operand := by
  constructor
  · intro h
    unfold decode at h
    split at h
    · cases h
    · next op bs =>
      split at h <;> cases h
      · next hrow => exact ⟨op, _, [], rfl, hrow, .one _⟩
      · next hrow => exact ⟨op, _, [_], rfl, hrow, .two _ _⟩
      · next hrow => exact ⟨op, _, [_, _], rfl, hrow, .ofBytes _ _ _⟩
  · rintro ⟨op, row, operand, rfl, hrow, hi⟩
    cases hi <;> simp [decode, hrow]

/-! ### Looking up a row -/

theorem findRow_eq_none {rows : List (Nat × Row)} {op : Nat} : findRow rows op = none ↔ op ∉ rows.map Prod.fst := by
  induction rows with
  | nil => simp [findRow]
  | cons e rows ih => by_cases hk : e.1 = op <;> simp [findRow, hk, ih, eq_comm (a := op)]

theorem mem_of_findRow {rows : List (Nat × Row)} {op : Nat} {row : Row} (h : findRow rows op = some row) :
    (op, row) ∈ rows := by
  induction rows with
  | nil => cases h
  | cons e rows ih =>
    rw [findRow] at h
    split at h
    · next hk =>
      cases h
      exact hk ▸ List.mem_cons_self
    · exact List.mem_cons_of_mem _ (ih h)

/-- With distinct keys the lookup finds every row, not only the first of its key. -/
theorem findRow_of_mem {rows : List (Nat × Row)} (hkeys : (rows.map Prod.fst).Nodup) {op : Nat} {row : Row}
    (h : (op, row) ∈ rows) : findRow rows op = some row := by
  induction rows with
  | nil => cases h
  | cons e rows ih =>
    obtain ⟨hfresh, hkeys⟩ := List.nodup_cons.1 hkeys
    rw [findRow]
    cases h with
    | head => exact if_pos rfl
    | tail _ h =>
      have hne : e.1 ≠ op := fun hk => hfresh (hk ▸ List.mem_map_of_mem h)
      rw [if_neg hne, ih hkeys h]

/-! ### The opcode map -/

/-- The keys of the map and the 103 bytes of R81 are the 256 bytes, each once. -/
theorem opcodes_perm_range : (opcodeRows.map Prod.fst ++ Claims.undefinedOpcodes).Perm (List.range 256) := by
  decide +kernel

theorem opcodes_nodup : (opcodeRows.map Prod.fst ++ Claims.undefinedOpcodes).Nodup :=
  opcodes_perm_range.nodup_iff.2 List.nodup_range

theorem opcodeRows_keys_nodup : (opcodeRows.map Prod.fst).Nodup := opcodes_nodup.of_append_left

/-- A byte is a key or is listed in R81, and never both. -/
theorem not_mem_keys_iff (op : Byte) : op.toNat ∉ opcodeRows.map Prod.fst ↔ op.toNat ∈ Claims.undefinedOpcodes := by
  have hmem := opcodes_perm_range.mem_iff.2 (List.mem_range.2 op.isLt)
  constructor
  · exact (List.mem_append.1 hmem).resolve_left
  · exact fun hundef hkey => List.disjoint_of_nodup_append opcodes_nodup hkey hundef

theorem opcodeRow_eq_none {op : Byte} : opcodeRow op = none ↔ op.toNat ∈ Claims.undefinedOpcodes :=
  findRow_eq_none.trans (not_mem_keys_iff op)

/-- The rows of the map by the high digit of the opcode byte, as the model writes them (R79). -/
def opcodeTables : List (List (Nat × Row)) :=
  [opcodeRows0, opcodeRows1, opcodeRows2, opcodeRows3, opcodeRows4, opcodeRows5, opcodeRows6, opcodeRows7,
   opcodeRows8, opcodeRows9, opcodeRowsA, opcodeRowsB, opcodeRowsC, opcodeRowsD, opcodeRowsE, opcodeRowsF]

theorem mem_opcodeRows {e : Nat × Row} : e ∈ opcodeRows ↔ ∃ rows ∈ opcodeTables, e ∈ rows := by
  simp [opcodeRows, opcodeTables]

/-- Row by row: the encoder gives every instruction of a row the opcode byte that is the row's key. -/
theorem opcodeTables_encode : ∀ rows ∈ opcodeTables, ∀ e ∈ rows, ∀ i operand, RowHolds e.2 i operand →
    encode i = BitVec.ofNat 8 e.1 :: operand := by
  simp only [opcodeTables, opcodeRows0, opcodeRows1, opcodeRows2, opcodeRows3, opcodeRows4, opcodeRows5, opcodeRows6,
    opcodeRows7, opcodeRows8, opcodeRows9, opcodeRowsA, opcodeRowsB, opcodeRowsC, opcodeRowsD, opcodeRowsE, opcodeRowsF,
    List.forall_mem_cons, List.not_mem_nil, IsEmpty.forall_iff, implies_true, and_true]
  and_intros <;> rintro _ _ ⟨⟩ <;> rfl

/-- An instruction of an opcode byte's row is encoded with that byte. -/
theorem encode_of_opcodeRow {op : Byte} {row : Row} {i : Instr} {operand : List Byte} (hrow : opcodeRow op = some row)
    (hi : RowHolds row i operand) : encode i = op :: operand := by
  obtain ⟨rows, hrows, hmem⟩ := mem_opcodeRows.1 (mem_of_findRow hrow)
  simpa using opcodeTables_encode rows hrows _ hmem i operand hi

/-- Instruction by instruction: the table of its opcode byte's high digit has a row that it is of. -/
theorem opcodeTables_row (i : Instr) : ∃ rows row, opcodeTables[i.opcode.toNat / 16]? = some rows ∧
    findRow rows i.opcode.toNat = some row ∧ RowHolds row i i.operandBytes := by
  cases i <;> dsimp only [Instr.opcode] <;> exact ⟨_, _, rfl, rfl, by constructor⟩

/-- Every instruction is of its opcode byte's row. -/
theorem opcodeRow_opcode (i : Instr) : ∃ row, opcodeRow i.opcode = some row ∧ RowHolds row i i.operandBytes := by
  obtain ⟨rows, row, hrows, hrow, hi⟩ := opcodeTables_row i
  have hmem := mem_opcodeRows.2 ⟨rows, List.mem_of_getElem? hrows, mem_of_findRow hrow⟩
  exact ⟨row, findRow_of_mem opcodeRows_keys_nodup hmem, hi⟩

/-! ### Decoding and encoding -/

theorem decode_encode (i : Instr) (rest : List Byte) : decode (encode i ++ rest) = .ok (i, rest) := by
  obtain ⟨row, hrow, hi⟩ := opcodeRow_opcode i
  exact decode_eq_ok.2 ⟨i.opcode, row, i.operandBytes, rfl, hrow, hi⟩

/-- Settles O1: the encoder writes the opcode byte of a row that the instruction is of, and its operand bytes. -/
theorem decodeInvertsEncode : Obligations.DecodeInvertsEncode := decode_encode

theorem eq_encode_of_decode {bs rest : List Byte} {i : Instr} (h : decode bs = .ok (i, rest)) :
    bs = encode i ++ rest := by
  obtain ⟨op, row, operand, rfl, hrow, hi⟩ := decode_eq_ok.1 h
  rw [encode_of_opcodeRow hrow hi]

/-- Settles O2: the instruction is of the opcode byte's row, so it is encoded with that byte. -/
theorem encodeInvertsDecode : Obligations.EncodeInvertsDecode := fun _ _ _ => eq_encode_of_decode

/-- Settles O3: keys and undefined opcodes are a permutation of the bytes, so the keys are distinct and the rest is R81's. -/
theorem opcodeMapIsTotal : Obligations.OpcodeMapIsTotal :=
  ⟨rfl, rfl, opcodeRows_keys_nodup, fun _ => Option.isNone_iff_eq_none.trans opcodeRow_eq_none⟩

/-- Settles O4: each byte string is the encoding of its instruction. -/
theorem writtenWordsDecode : Obligations.WrittenWordsDecode :=
  ⟨decode_encode .inx [], decode_encode .aslA [], decode_encode (.ldaImm 0x80) [], decode_encode (.ldaZp 0x10) [],
    decode_encode (.ldaZpX 0x10) [], decode_encode (.ldxZpY 0x10) [], decode_encode (.ldaAbs 0x1234) [],
    decode_encode (.ldaAbsX 0x1234) [], decode_encode (.ldaAbsY 0x1234) [], decode_encode (.ldaIndX 0x10) [],
    decode_encode (.ldaIndY 0x10) [], decode_encode (.bne 0xF7) [], decode_encode (.jmpInd 0x1234) [],
    decode_encode (.jmpIndAbsX 0x1234) []⟩

end Sys2Proof.Machine
end

section
/-! PROOFS. The step fetches what the bytes at PC decode to (30_encoding.md R60, R81; 60_exceptions.md R226), and what ends
a run (70_reset_and_hazards.md R268). -/

namespace Sys2Proof.Machine

/-! ### The fetch is the decoder -/

/-- An encoding is as long as R62 says for its mode. -/
theorem encode_length (i : Instr) : (encode i).length = i.length := by
  cases i <;> rfl

theorem length_le_three (i : Instr) : i.length ≤ 3 := by
  rw [Instr.length]
  cases i.mode <;> decide

theorem fetch_of_decode {s : State} {i : Instr} {rest : List Byte}
    (hplain : ∀ k : Nat, k < i.length → s.isPlain (s.pc + BitVec.ofNat 16 k) = true)
    (h : decode [byteAt s s.pc, byteAt s (s.pc + 1), byteAt s (s.pc + 2)] = .ok (i, rest)) : fetch s = .next i := by
  obtain ⟨op, row, operand, hbytes, hrow, hi⟩ := decode_eq_ok.1 h
  have hlen : i.length = operand.length + 1 := by
    rw [← encode_length, encode_of_opcodeRow hrow hi, List.length_cons]
  have hpc : s.isPlain s.pc = true := by simpa using hplain 0 (by omega)
  simp only [List.cons_append, List.cons.injEq] at hbytes
  obtain ⟨rfl, hoperand⟩ := hbytes
  rw [fetch_eq_next, hrow]
  cases hi with
  | one => exact ⟨hpc, rfl⟩
  | two mk b1 =>
    have h1 : s.isPlain (s.pc + 1) = true := hplain 1 (by simp [hlen])
    simp only [List.cons_append, List.cons.injEq] at hoperand
    obtain ⟨rfl, -⟩ := hoperand
    exact ⟨hpc, h1, rfl⟩
  | three mk w =>
    have h1 : s.isPlain (s.pc + 1) = true := hplain 1 (by simp [hlen])
    have h2 : s.isPlain (s.pc + 2) = true := hplain 2 (by simp [hlen])
    simp only [List.cons_append, List.cons.injEq] at hoperand
    obtain ⟨hlo, hhi, -⟩ := hoperand
    exact ⟨hpc, h1, h2, by rw [hlo, hhi, joinBytes_hi_lo]⟩

/-- An opcode byte with no row is a fault before any operand byte is read (R81). -/
theorem fetch_undefined {s : State} (hplain : s.isPlain s.pc = true) (hrow : opcodeRow (byteAt s s.pc) = none) :
    fetch s = .fault (.undefinedOpcode (byteAt s s.pc)) := by
  simp only [fetch, memRead_plain hplain, andThen_next, hrow]

/-! ### The step -/

theorem nmiDue_of_nothingDue {s : State} (h : Claims.NothingDue s) : nmiDue s = false := by
  obtain hhw | ⟨hnmi, -⟩ := h
  · simp [nmiDue, hhw]
  · simp [nmiDue, hnmi]

theorem irqDue_of_nothingDue {s : State} (h : Claims.NothingDue s) : irqDue s = false := by
  obtain hhw | ⟨-, hline | hpoll⟩ := h
  · simp [irqDue, hhw]
  · simp [irqDue, hline]
  · simp [irqDue, hpoll]

theorem step_of_nothingDue {s : State} (hmark : s.faultMark = false) (hreset : s.resetLine = false)
    (hdue : Claims.NothingDue s) : step s = runInstruction s :=
  step_of_quiet hmark hreset (nmiDue_of_nothingDue hdue) (irqDue_of_nothingDue hdue)

theorem step_of_decode {s : State} {i : Instr} {rest : List Byte} (hmark : s.faultMark = false)
    (hreset : s.resetLine = false) (hdue : Claims.NothingDue s)
    (hplain : ∀ k : Nat, k < i.length → s.isPlain (s.pc + BitVec.ofNat 16 k) = true)
    (h : decode [byteAt s s.pc, byteAt s (s.pc + 1), byteAt s (s.pc + 2)] = .ok (i, rest)) :
    step s = andThen (exec i s) fun t => .next (afterInstruction i t) := by
  rw [step_of_nothingDue hmark hreset hdue, runInstruction, fetch_of_decode hplain h, andThen_next]

theorem delaysPoll_iff (i : Instr) : delaysPoll i = true ↔ i ∈ [Instr.cli, .sei, .plp] := by
  cases i <;> simp [delaysPoll, Instr.mnemonic]

/-- Settles O5: `step_of_decode`, with the three instructions that delay `i_poll` named. -/
theorem stepRunsDecodedInstruction : Obligations.StepRunsDecodedInstruction := by
  intro s i rest hmark hreset hdue hplain h
  rw [step_of_decode hmark hreset hdue hplain h]
  simp only [afterInstruction, delaysPoll_iff, setPoll]

/-! ### Faults and the end of a run -/

theorem step_undefined {s : State} (hmark : s.faultMark = false) (hreset : s.resetLine = false)
    (hdue : Claims.NothingDue s) (hplain : s.isPlain s.pc = true) (hrow : opcodeRow (byteAt s s.pc) = none) :
    step s = .fault (.undefinedOpcode (byteAt s s.pc)) := by
  rw [step_of_nothingDue hmark hreset hdue, runInstruction, fetch_undefined hplain hrow, andThen_fault]

theorem atEnd_iff {s : State} : atEnd s = true ↔ s.params.endPc = some s.pc := beq_iff_eq

/-- Settles O6: R81's bytes are those with no row, and the run stops with the fault of its first step. -/
theorem undefinedOpcodeFaults : Obligations.UndefinedOpcodeFaults := by
  intro s hmark hreset hdue hplain hundef
  have hstep := step_undefined hmark hreset hdue hplain (opcodeRow_eq_none.2 hundef)
  refine ⟨hstep, fun hend rest => ?_⟩
  have hnotEnd : atEnd s = false := Bool.eq_false_iff.2 (mt atEnd_iff.1 hend)
  rw [runWith_cons hmark hnotEnd, applyMoves_nil, hstep]

theorem step_marked {s : State} (h : s.faultMark = true) : step s = .fault .runFaulted := by
  rw [step, if_pos h]

theorem runWith_marked {s : State} (h : s.faultMark = true) (inputs : List (List PlatformMove)) :
    runWith inputs s = .faulted s .runFaulted := by
  cases inputs <;> rw [runWith, if_pos h]

theorem runWith_atEnd {s : State} (hmark : s.faultMark = false) (hend : atEnd s = true)
    (inputs : List (List PlatformMove)) : runWith inputs s = .success s := by
  cases inputs <;> rw [runWith, hmark, if_neg Bool.false_ne_true, if_pos hend]

/-- Settles O7: a run looks at the mark first, then at `END_PC`, before any move. -/
theorem markedRunDoesNotContinue : Obligations.MarkedRunDoesNotContinue :=
  ⟨fun _ h => ⟨step_marked h, runWith_marked h⟩,
    fun _ inputs hmark hend => runWith_atEnd hmark (atEnd_iff.2 hend) inputs⟩

/-! ### A word placed at PC -/

/-- Three bytes stored from `a` on stand at `a`, `a + 1` and `a + 2`: those addresses are distinct. -/
theorem cellAt_storeBytes_three (b0 b1 b2 : Byte) (a : Addr) (m : List Host.Cell) :
    cellAt (storeBytes [b0, b1, b2] a m) a.toNat = some b0 ∧
    cellAt (storeBytes [b0, b1, b2] a m) (a + 1).toNat = some b1 ∧
    cellAt (storeBytes [b0, b1, b2] a m) (a + 2).toNat = some b2 := by
  have h10 : a + 1 ≠ a := by bv_omega
  have h20 : a + 2 ≠ a := by bv_omega
  have h21 : a + 2 ≠ a + 1 := by bv_omega
  have hsucc : a + 1 + 1 = a + 2 := by bv_omega
  simp only [storeBytes, cellAt_setCell, BitVec.toNat_inj, hsucc, h10, h20, h21, if_true, if_false, and_self]

/-- The bytes that stand at PC after `withFetchWord` are the word's. -/
theorem bytesAtPC_withFetchWord (s : State) (nbits w : Nat) :
    [byteAt (s.withFetchWord nbits w) s.pc, byteAt (s.withFetchWord nbits w) (s.pc + 1),
      byteAt (s.withFetchWord nbits w) (s.pc + 2)] = tableBytes nbits w := by
  obtain ⟨h0, h1, h2⟩ := cellAt_storeBytes_three (byteOfNat (w % 2 ^ nbits) 0) (byteOfNat (w % 2 ^ nbits) 1)
    (byteOfNat (w % 2 ^ nbits) 2) s.pc s.mem
  simp only [byteAt, State.withFetchWord, tableBytes, h0, h1, h2]

theorem decodeTableWord_eq_some {nbits w : Nat} {i : Instr} :
    decodeTableWord nbits w = some i ↔ ∃ rest, decode (tableBytes nbits w) = .ok (i, rest) := by
  rw [decodeTableWord]
  rcases decode (tableBytes nbits w) with _ | ⟨j, rest⟩ <;> simp

/-- Settles O8: the step after `withFetchWord` has nothing due and finds the word's bytes at PC. -/
theorem fetchWordIsRun : Obligations.FetchWordIsRun := by
  intro s nbits w i hword h0 h1 h2
  obtain ⟨rest, hdecode⟩ := decodeTableWord_eq_some.1 hword
  rw [← bytesAtPC_withFetchWord s] at hdecode
  refine step_of_decode rfl rfl (.inr ⟨rfl, .inl rfl⟩) (fun k hk => ?_) hdecode
  have hk3 := hk.trans_le (length_le_three i)
  have h0 : s.isPlain (s.pc + 0) = true := by simpa using h0
  interval_cases k
  exacts [h0, h1, h2]

end Sys2Proof.Machine
end

section
/-! PROOFS. What the addressing modes deliver (30_encoding.md R67 to R75). -/

namespace Sys2Proof.Machine

/-- The operand of a memory mode is the byte at the effective address. -/
theorem ReadForm.read_mem_of_ea {f : MemForm} {s : State} {a : Addr} (h : f.ea s = .next a) :
    (ReadForm.mem f).read s = memRead a s := by
  rw [ReadForm.read, h, andThen_next]

theorem eq_zext16_iff {a : Addr} {b : Byte} : a = zext16 b ↔ a.toNat = b.toNat := by
  rw [← BitVec.toNat_inj, zext16_toNat]

theorem eq_joinBytes_iff {a : Addr} {hi lo : Byte} : a = joinBytes hi lo ↔ a.toNat = 256 * hi.toNat + lo.toNat := by
  rw [← BitVec.toNat_inj, joinBytes_toNat]

/-- An index register is added to a 16-bit address with the carry, modulo 65536 (R72, R73, R75). -/
theorem eq_add_zext16_iff {a w : Addr} {b : Byte} : a = w + zext16 b ↔ a.toNat = (w.toNat + b.toNat) % 65536 := by
  rw [← BitVec.toNat_inj, BitVec.toNat_add, zext16_toNat]

/-- An index register is added to a zero-page address modulo 256 (R69, R70, R74). -/
theorem eq_zext16_add_iff {a : Addr} {b c : Byte} : a = zext16 (b + c) ↔ a.toNat = (b.toNat + c.toNat) % 256 := by
  rw [eq_zext16_iff, BitVec.toNat_add]

/-- Settles O9: the sums are of bytes, so they wrap in zero page. -/
theorem immediateAndZeroPageModes : Obligations.ImmediateAndZeroPageModes := by
  intro s b a
  have hlen : ∀ f ∈ [MemForm.zp b, .zpX b, .zpY b], f.length = 2 := by simp [MemForm.length]
  exact ⟨rfl, ReadForm.read_imm b s, fun f hf => ⟨hlen f hf, ReadForm.read_mem_of_ea⟩,
    fun ha => MemForm.ea_eq_next.2 (eq_zext16_iff.2 ha), fun ha => MemForm.ea_eq_next.2 (eq_zext16_add_iff.2 ha),
    fun ha => MemForm.ea_eq_next.2 (eq_zext16_add_iff.2 ha)⟩

/-- JSR, where it goes on, goes to its operand (R193). -/
theorem execJsr_pc {w : Addr} {s t : State} (h : execJsr w s = .next t) : t.pc = w := by
  obtain ⟨u, -, ht⟩ := andThen_eq_next.1 h
  cases ht
  rfl

/-- Settles O10: the sums are of 16-bit addresses; the operand bytes of an encoding are the address, low byte first. -/
theorem absoluteModes : Obligations.AbsoluteModes := by
  intro s w a
  have hlen : ∀ f ∈ [MemForm.abs w, .absX w, .absY w], f.length = 3 := by simp [MemForm.length]
  refine ⟨fun f hf => ⟨hlen f hf, ReadForm.read_mem_of_ea⟩, rfl,
    fun ha => MemForm.ea_eq_next.2 (eq_add_zext16_iff.2 ha), fun ha => MemForm.ea_eq_next.2 (eq_add_zext16_iff.2 ha),
    fun b1 b2 hw => ?_, rfl, fun _ => execJsr_pc⟩
  have hjoin : w = joinBytes b2 b1 := eq_joinBytes_iff.2 hw
  obtain rfl : loByte w = b1 := by rw [hjoin, loByte_joinBytes]
  obtain rfl : hiByte w = b2 := by rw [hjoin, hiByte_joinBytes]
  exact ⟨decode_encode (.ldaAbs w) [], decode_encode (.ldaAbsX w) [], decode_encode (.ldaAbsY w) [],
    decode_encode (.jmpAbs w) [], decode_encode (.jsr w) []⟩

/-- Settles O11: the pointer's bytes stand at zero-page addresses, and the sum with Y is of 16-bit addresses. -/
theorem indirectModes : Obligations.IndirectModes := by
  intro s b p q a hp hq
  have hlen : ∀ f ∈ [MemForm.indX b, .indY b], f.length = 2 := by simp [MemForm.length]
  refine ⟨fun f hf => ⟨hlen f hf, ReadForm.read_mem_of_ea⟩, fun hplo hqhi ha => ?_, fun hplo hqhi ha => ?_⟩
  · obtain rfl : p = zext16 (b + s.regX) := eq_zext16_add_iff.2 hplo
    obtain rfl : q = zext16 (b + s.regX + 1) := by
      rw [eq_zext16_add_iff, BitVec.toNat_add, hqhi, Nat.mod_add_mod]
      rfl
    exact MemForm.ea_eq_next.2 ⟨hp, hq, eq_joinBytes_iff.2 ha⟩
  · obtain rfl : p = zext16 b := eq_zext16_iff.2 hplo
    obtain rfl : q = zext16 (b + 1) := eq_zext16_add_iff.2 hqhi
    refine MemForm.ea_eq_next.2 ⟨hp, hq, ?_⟩
    rw [eq_add_zext16_iff, joinBytes_toNat, ha]

end Sys2Proof.Machine
end

section
/-! PROOFS. Load and store (40_load_store.md R100 to R105). A row of a table of forms says which operation its instruction is;
what the operation does is then proved once for all forms. -/

namespace Sys2Proof.Machine

/-- `i` has opcode byte `op` and length `len`, and its meaning is `operation`: what a row of a mnemonic's table of forms says. -/
structure Performs (i : Instr) (op : Byte) (len : Nat) (operation : State → Result State) : Prop where
  opcode_eq : i.opcode = op
  length_eq : i.length = len
  exec_eq : ∀ s, exec i s = operation s

section Loads

variable {b : Byte} {w : Addr} {op : Byte} {i : Instr} {f : ReadForm}

theorem ldaForms_performs :
    ∀ row ∈ Claims.ldaForms b w, Performs row.2.1 row.1 row.2.2.length (loadA row.2.2) := by
  intro row hrow
  fin_cases hrow <;> exact ⟨rfl, rfl, fun _ => rfl⟩

/-- The indexed forms of LDX index with Y (R101). -/
theorem ldxForms_performs :
    ∀ row ∈ Claims.ldxForms b w, Performs row.2.1 row.1 row.2.2.length (loadX row.2.2) := by
  intro row hrow
  fin_cases hrow <;> exact ⟨rfl, rfl, fun _ => rfl⟩

theorem ldyForms_performs :
    ∀ row ∈ Claims.ldyForms b w, Performs row.2.1 row.1 row.2.2.length (loadY row.2.2) := by
  intro row hrow
  fin_cases hrow <;> exact ⟨rfl, rfl, fun _ => rfl⟩

/-- An instruction that takes an operand goes on where the operand can be read: its effect, then `PC <- next`. -/
theorem Performs.next_of_read {effect : Byte → State → State} {s : State} {m : Byte}
    (hi : Performs i op f.length (withOperand f effect)) (hm : f.read s = .next m) :
    exec i s = .next (advance i.length (effect m s)) := by
  rw [hi.exec_eq, hi.length_eq]
  exact withOperand_eq_next.2 ⟨m, hm, rfl⟩

end Loads

section Stores

variable {b : Byte} {w : Addr} {op : Byte} {i : Instr} {f : MemForm}

theorem staForms_performs :
    ∀ row ∈ Claims.staForms b w, Performs row.2.1 row.1 row.2.2.length (storeA row.2.2) := by
  intro row hrow
  fin_cases hrow <;> exact ⟨rfl, rfl, fun _ => rfl⟩

/-- The one indexed form of STX indexes with Y (R104). -/
theorem stxForms_performs :
    ∀ row ∈ Claims.stxForms b w, Performs row.2.1 row.1 row.2.2.length (storeX row.2.2) := by
  intro row hrow
  fin_cases hrow <;> exact ⟨rfl, rfl, fun _ => rfl⟩

/-- The one indexed form of STY indexes with X (R105). -/
theorem styForms_performs :
    ∀ row ∈ Claims.styForms b w, Performs row.2.1 row.1 row.2.2.length (storeY row.2.2) := by
  intro row hrow
  fin_cases hrow <;> exact ⟨rfl, rfl, fun _ => rfl⟩

/-- An instruction that stores goes on at a plain address, and changes that byte, if it is `ram`, and PC alone. -/
theorem Performs.writesByte {source : State → Byte} {s : State} {a : Addr}
    (hi : Performs i op f.length fun t => storeOperand f (source t) t) (hea : f.ea s = .next a)
    (hplain : s.isPlain a = true) :
    ∃ t, exec i s = .next t ∧ t = { s with mem := t.mem, pc := Claims.nextPC i s } ∧
      Claims.WritesByte s t a (source s) := by
  have hexec : exec i s = .next (advance i.length (setMem (memAfterWrite a (source s) s) s)) := by
    rw [hi.exec_eq, hi.length_eq]
    exact storeOperand_eq_next.2 ⟨a, hea, hplain, rfl⟩
  exact ⟨_, hexec, rfl, byteAt_memAfterWrite rfl⟩

end Stores

/-- Settles O17: each form is `storeA`, which stores A at the effective address. -/
theorem staStoresA : Obligations.StaStoresA := by
  intro s b w op i f a hform hea hplain
  have hi := staForms_performs _ hform
  exact ⟨hi.opcode_eq, hi.writesByte hea hplain⟩

/-- Settles O18: each form is `storeX`. -/
theorem stxStoresX : Obligations.StxStoresX := by
  intro s b w op i f a hform hea hplain
  have hi := stxForms_performs _ hform
  exact ⟨hi.opcode_eq, hi.writesByte hea hplain⟩

/-- Settles O19: each form is `storeY`. -/
theorem styStoresY : Obligations.StyStoresY := by
  intro s b w op i f a hform hea hplain
  have hi := styForms_performs _ hform
  exact ⟨hi.opcode_eq, hi.writesByte hea hplain⟩

/-- Settles O14: each form is `loadA`, whose effect is `setA`, then `setNZ`. -/
theorem ldaLoadsOperandIntoA : Obligations.LdaLoadsOperandIntoA := by
  intro s b w op i f m hform hm
  have hi := ldaForms_performs _ hform
  exact ⟨hi.opcode_eq, hi.next_of_read hm⟩

/-- Settles O15: each form is `loadX`, whose effect is `setX`, then `setNZ`. -/
theorem ldxLoadsOperandIntoX : Obligations.LdxLoadsOperandIntoX := by
  intro s b w op i f m hform hm
  have hi := ldxForms_performs _ hform
  exact ⟨hi.opcode_eq, hi.next_of_read hm⟩

/-- Settles O16: each form is `loadY`, whose effect is `setY`, then `setNZ`. -/
theorem ldyLoadsOperandIntoY : Obligations.LdyLoadsOperandIntoY := by
  intro s b w op i f m hform hm
  have hi := ldyForms_performs _ hform
  exact ⟨hi.opcode_eq, hi.next_of_read hm⟩

end Sys2Proof.Machine
end

section
/-! PROOFS. Binary and decimal arithmetic: ADC and SBC (41_arithmetic.md R110 to R115). The sums of R112 to R114 are first
described as numbers; the forms of a mnemonic then share one proof, as those of load and store do. -/

namespace Sys2Proof.Machine

/-! ### The binary addition as numbers (R112) -/

theorem bit_true : bit true = 1 := rfl

theorem bit_false : bit false = 0 := rfl

theorem bit_eq_ite (c : Bool) : (bit c : Int) = if c then 1 else 0 := by
  cases c <;> rfl

theorem one_sub_bit_eq_ite (c : Bool) : 1 - (bit c : Int) = if c then 0 else 1 := by
  cases c <;> rfl

theorem binaryResult_toNat (a m : Byte) (c : Bool) : (binaryResult a m c).toNat = binarySum a m c % 256 :=
  BitVec.toNat_ofNat _ 8

/-- The sum of two bytes and a carry has nine bits. -/
theorem binarySum_lt (a m : Byte) (c : Bool) : binarySum a m c < 512 := by
  have ha := a.isLt
  have hm := m.isLt
  have hc := bit_le_one c
  unfold binarySum
  omega

/-- Bit 8 of the sum says whether a byte is too small for it. -/
theorem binaryCarry_eq (a m : Byte) (c : Bool) : binaryCarry a m c = decide (255 < binarySum a m c) := by
  have hlt := binarySum_lt a m c
  rw [binaryCarry, Nat.testBit_eq_decide_div_mod_eq, decide_eq_decide]
  omega

/-- The result and the carry out together are the whole sum: nothing is lost. -/
theorem binaryResult_add_carry (a m : Byte) (c : Bool) :
    (binaryResult a m c).toNat + 256 * bit (binaryCarry a m c) = binarySum a m c := by
  have hlt := binarySum_lt a m c
  rw [binaryResult_toNat, binaryCarry_eq, bit]
  split <;> simp only [decide_eq_true_eq] at * <;> omega

/-- Two additions chained through the carry add 16-bit numbers (R115). -/
theorem twoByteSum (aLo aHi mLo mHi : Byte) :
    256 * (binaryResult aHi mHi (binaryCarry aLo mLo false)).toNat + (binaryResult aLo mLo false).toNat +
        65536 * bit (binaryCarry aHi mHi (binaryCarry aLo mLo false)) =
      (256 * aHi.toNat + aLo.toNat) + (256 * mHi.toNat + mLo.toNat) := by
  have hlow := binaryResult_add_carry aLo mLo false
  have hhigh := binaryResult_add_carry aHi mHi (binaryCarry aLo mLo false)
  rw [binarySum] at hlow hhigh
  rw [bit_false] at hlow
  omega

/-- The overflow formula of R112 says that the signed sum `v` is outside the range of a signed byte. -/
theorem binaryOverflow_eq {a m : Byte} {c : Bool} {v : Int} (hv : v = a.toInt + m.toInt + bit c) :
    binaryOverflow a m c = !decide (-128 ≤ v ∧ v ≤ 127) := by
  have hr := binaryResult_toNat a m c
  unfold binarySum at hr
  have ha := a.isLt
  have hm := m.isLt
  have hc := bit_le_one c
  have hsign (x : Byte) : x.getLsbD 7 = decide (128 ≤ x.toNat) := BitVec.msb_eq_decide x
  rw [BitVec.toInt_eq_toNat_cond, BitVec.toInt_eq_toNat_cond] at hv
  rw [binaryOverflow, BitVec.getLsbD_and, BitVec.getLsbD_xor, BitVec.getLsbD_xor, hsign, hsign, hsign, Bool.eq_iff_iff]
  simp only [Bool.and_eq_true, bne_iff_ne, ne_eq, decide_eq_decide, Bool.not_eq_true', decide_eq_false_iff_not]
  omega

/-- The signed 16-bit sum is 256 times the signed sum of the high bytes and the carry between them, plus the low result: it
overflows exactly if the sum of the high bytes does (R115). -/
theorem twoByteOverflow (aLo aHi mLo mHi : Byte) :
    binaryOverflow aHi mHi (binaryCarry aLo mLo false) = false ↔
      -32768 ≤ (256 * aHi.toInt + aLo.toNat) + (256 * mHi.toInt + mLo.toNat) ∧
      (256 * aHi.toInt + aLo.toNat) + (256 * mHi.toInt + mLo.toNat) ≤ 32767 := by
  have hlow := binaryResult_add_carry aLo mLo false
  have hlt := (binaryResult aLo mLo false).isLt
  rw [binarySum, bit_false] at hlow
  rw [binaryOverflow_eq rfl, Bool.not_eq_false', decide_eq_true_eq]
  omega

theorem beq_zero_eq (v : Byte) : (v == 0) = decide (v.toNat = 0) := by
  rw [beq_eq_decide, decide_eq_decide, ← BitVec.toNat_inj]
  rfl

/-- `AddBin`, then `PC <- next`, with the result, C and V described by the unsigned and the signed sum. -/
theorem advance_addBinary {s : State} {m r : Byte} {c z : Bool} {v : Int} (len : Nat)
    (hr : r.toNat = binarySum s.regA m s.flagC % 256) (hc : c = decide (255 < binarySum s.regA m s.flagC))
    (hv : v = s.regA.toInt + m.toInt + bit s.flagC) (hz : z = decide (r.toNat = 0)) :
    advance len (addBinary m s) = { s with
      regA := r, flagC := c, flagV := !decide (-128 ≤ v ∧ v ≤ 127), flagN := r.getLsbD 7, flagZ := z,
      pc := s.pc + BitVec.ofNat 16 len } := by
  obtain rfl : r = binaryResult s.regA m s.flagC := BitVec.eq_of_toNat_eq (hr.trans (binaryResult_toNat _ _ _).symm)
  rw [hc, hz, ← binaryOverflow_eq hv, ← binaryCarry_eq, ← beq_zero_eq]
  rfl

/-! ### The complement of the operand, which SBC adds (R111) -/

theorem complement_toNat (m : Byte) : (m ^^^ 0xFF).toNat = 255 - m.toNat := by
  rw [show m ^^^ 0xFF = ~~~m from BitVec.xor_allOnes, BitVec.toNat_not]

theorem complement_toInt (m : Byte) : (m ^^^ 0xFF).toInt = -m.toInt - 1 := by
  have hm := m.isLt
  rw [BitVec.toInt_eq_toNat_cond, BitVec.toInt_eq_toNat_cond, complement_toNat]
  omega

/-- The sum with the complement is the difference `A - m - (1 - C)`, moved up by 256 (R111). -/
theorem binarySum_complement (a m : Byte) (c : Bool) :
    (binarySum a (m ^^^ 0xFF) c : Int) = a.toNat - m.toNat - (1 - bit c) + 256 := by
  have hm := m.isLt
  rw [binarySum, complement_toNat]
  omega

/-- With C = 1 nothing is borrowed, so the result is the difference that CMP looks at (R115). -/
theorem binaryResult_complement (a m : Byte) : binaryResult a (m ^^^ 0xFF) true = a - m := by
  have hm := m.isLt
  have hsum := binarySum_complement a m true
  rw [bit_true] at hsum
  apply BitVec.eq_of_toNat_eq
  rw [binaryResult_toNat, BitVec.toNat_sub]
  omega

theorem binaryCarry_complement (a m : Byte) : binaryCarry a (m ^^^ 0xFF) true = decide (m.toNat ≤ a.toNat) := by
  have hsum := binarySum_complement a m true
  rw [bit_true] at hsum
  rw [binaryCarry_eq, decide_eq_decide]
  omega

/-! ### The forms -/

section Forms

variable {b : Byte} {w : Addr} {op : Byte} {i : Instr} {f : ReadForm} {s : State} {m : Byte}

theorem adcForms_performs :
    ∀ row ∈ Claims.adcForms b w, Performs row.2.1 row.1 row.2.2.length (addWithCarry row.2.2) := by
  intro row hrow
  fin_cases hrow <;> exact ⟨rfl, rfl, fun _ => rfl⟩

theorem sbcForms_performs :
    ∀ row ∈ Claims.sbcForms b w, Performs row.2.1 row.1 row.2.2.length (subtractWithBorrow row.2.2) := by
  intro row hrow
  fin_cases hrow <;> exact ⟨rfl, rfl, fun _ => rfl⟩

/-- With D = 0 ADC is the binary addition, wherever its operand can be read (R110). -/
theorem Performs.adc_binary (hi : Performs i op f.length (addWithCarry f)) (hm : f.read s = .next m)
    (hD : s.flagD = false) : exec i s = .next (advance i.length (addBinary m s)) := by
  rw [hi.next_of_read hm, if_neg (by simp [hD])]

/-- With D = 1 it is the decimal addition (R110). -/
theorem Performs.adc_decimal (hi : Performs i op f.length (addWithCarry f)) (hm : f.read s = .next m)
    (hD : s.flagD = true) : exec i s = .next (advance i.length (addDecimal m s)) := by
  rw [hi.next_of_read hm, if_pos hD]

/-- With D = 0 SBC is the binary addition of the complement (R111). -/
theorem Performs.sbc_binary (hi : Performs i op f.length (subtractWithBorrow f)) (hm : f.read s = .next m)
    (hD : s.flagD = false) : exec i s = .next (advance i.length (addBinary (m ^^^ 0xFF) s)) := by
  rw [hi.next_of_read hm, if_neg (by simp [hD])]

/-- With D = 1 it is the decimal subtraction (R111). -/
theorem Performs.sbc_decimal (hi : Performs i op f.length (subtractWithBorrow f)) (hm : f.read s = .next m)
    (hD : s.flagD = true) : exec i s = .next (advance i.length (subDecimal m s)) := by
  rw [hi.next_of_read hm, if_pos hD]

theorem exec_adcImm (hD : s.flagD = false) : exec (.adcImm m) s = .next (advance 2 (addBinary m s)) :=
  (adcForms_performs (b := m) (w := 0) _ List.mem_cons_self).adc_binary (ReadForm.read_imm m s) hD

theorem exec_sbcImm (hD : s.flagD = false) :
    exec (.sbcImm m) s = .next (advance 2 (addBinary (m ^^^ 0xFF) s)) :=
  (sbcForms_performs (b := m) (w := 0) _ List.mem_cons_self).sbc_binary (ReadForm.read_imm m s) hD

theorem exec_cmpImm : exec (.cmpImm m) s = .next (advance 2 (compareWith s.regA m s)) := rfl

end Forms

/-! ### Decimal arithmetic (R113, R114) -/

/-- `bcd(n)` is two valid digits, whose value is `n` (R113). -/
theorem bcdByte_valid {n : Nat} (hn : n < 100) : validBcd (bcdByte n) = true ∧ bcdValue (bcdByte n) = n := by
  have hbyte : (bcdByte n).toNat = 16 * (n / 10) + n % 10 := by
    rw [bcdByte, BitVec.toNat_ofNat]
    omega
  simp only [validBcd, bcdValue, highDigit, lowDigit, hbyte, Bool.and_eq_true, decide_eq_true_eq]
  omega

theorem addDecimal_of_valid {m : Byte} {s : State} (ha : validBcd s.regA = true) (hm : validBcd m = true) :
    (addDecimal m s).regA = bcdByte (decimalSum s.regA m s.flagC % 100) ∧
      (addDecimal m s).flagC = decide (100 ≤ decimalSum s.regA m s.flagC) := by
  rw [addDecimal, ha, hm]
  exact ⟨rfl, rfl⟩

theorem subDecimal_of_valid {m : Byte} {s : State} (ha : validBcd s.regA = true) (hm : validBcd m = true) :
    (subDecimal m s).regA = bcdByte (decimalDifference s.regA m s.flagC % 100).toNat ∧
      (subDecimal m s).flagC = decide (0 ≤ decimalDifference s.regA m s.flagC) := by
  rw [subDecimal, ha, hm]
  exact ⟨rfl, rfl⟩

theorem decimalSum_eq (a m : Byte) (c : Bool) :
    (decimalSum a m c : Int) = bcdValue a + bcdValue m + if c then 1 else 0 := by
  rw [decimalSum, ← bit_eq_ite]
  omega

theorem decimalDifference_eq (a m : Byte) (c : Bool) :
    decimalDifference a m c = bcdValue a - bcdValue m - if c then 0 else 1 := by
  rw [decimalDifference, one_sub_bit_eq_ite]

theorem addDecimal_pc (m : Byte) (s : State) : (addDecimal m s).pc = s.pc :=
  addDecimal_changesOnly m s .pc (by simp)

theorem subDecimal_pc (m : Byte) (s : State) : (subDecimal m s).pc = s.pc :=
  subDecimal_changesOnly m s .pc (by simp)

/-- Decimal arithmetic writes A, C, N, V, Z and the count of draws alone; then `PC <- next` (R113, R114). -/
theorem advance_of_decimal {s u : State} (len : Nat)
    (h : ChangesOnly [.regA, .flagC, .flagN, .flagV, .flagZ, .draws] s u) :
    advance len u = { s with
      regA := u.regA, flagC := u.flagC, flagN := u.flagN, flagV := u.flagV, flagZ := u.flagZ, draws := u.draws,
      pc := s.pc + BitVec.ofNat 16 len } := by
  have hpc : u.pc = s.pc := h .pc (by simp)
  apply State.ext
  case regA | flagC | flagN | flagV | flagZ | draws => rfl
  case pc => rw [advance, hpc]
  case regX => exact h .regX (by simp)
  case regY => exact h .regY (by simp)
  case regS => exact h .regS (by simp)
  case flagD => exact h .flagD (by simp)
  case flagI => exact h .flagI (by simp)
  case mem => exact h .mem (by simp)
  case irqLine => exact h .irqLine (by simp)
  case nmiPending => exact h .nmiPending (by simp)
  case iPoll => exact h .iPoll (by simp)
  case resetLine => exact h .resetLine (by simp)
  case faultMark => exact h .faultMark (by simp)
  case params => exact h .params (by simp)

/-! ### The statements -/

/-- Settles O20: each form is `addWithCarry`; `advance_addBinary` describes its binary addition. -/
theorem adcAdds : Obligations.AdcAdds := by
  intro s b w op i f m r t hform hm ht hr
  have hi := adcForms_performs _ hform
  have hsum : binarySum s.regA m s.flagC = t := ht.symm
  refine ⟨hi.opcode_eq, fun hD => ?_, fun hD => ?_⟩
  · rw [hi.adc_binary hm hD]
    refine congrArg Host.Outcome.next (advance_addBinary i.length ?_ ?_ ?_ ?_)
    · rw [hsum, hr]
    · rw [hsum]
    · rw [bit_eq_ite]
    · rw [hr]
  · rw [hi.adc_decimal hm hD, advance, addDecimal_pc]
    rfl

/-- Settles O21: each form is `subtractWithBorrow`, whose binary subtraction adds the complement. -/
theorem sbcSubtracts : Obligations.SbcSubtracts := by
  intro s b w op i f m r t hform hm ht hr
  have hi := sbcForms_performs _ hform
  have hsum := binarySum_complement s.regA m s.flagC
  rw [one_sub_bit_eq_ite, ← ht] at hsum
  refine ⟨hi.opcode_eq, fun hD => ?_, fun hD => ?_⟩
  · rw [hi.sbc_binary hm hD]
    refine congrArg Host.Outcome.next (advance_addBinary i.length ?_ ?_ ?_ ?_)
    · omega
    · rw [decide_eq_decide]
      omega
    · rw [complement_toInt, ← one_sub_bit_eq_ite]
      omega
    · rw [decide_eq_decide]
      omega
  · rw [hi.sbc_decimal hm hD, advance, subDecimal_pc]
    rfl

/-- Settles O22: the frame from `addDecimal_changesOnly`; on valid digits A is `bcd(t mod 100)`. -/
theorem adcDecimalAdds : Obligations.AdcDecimalAdds := by
  intro s b w op i f m t hform hm hD ht
  have hi := adcForms_performs _ hform
  rw [← decimalSum_eq] at ht
  refine ⟨hi.opcode_eq, _, _, _, _, _, _, (hi.adc_decimal hm hD).trans
    (congrArg Host.Outcome.next (advance_of_decimal i.length (addDecimal_changesOnly m s))), fun ha hmv => ?_⟩
  obtain ⟨hA, hC⟩ := addDecimal_of_valid ha hmv
  obtain ⟨hvalid, hvalue⟩ := bcdByte_valid (Nat.mod_lt (decimalSum s.regA m s.flagC) (by decide : 0 < 100))
  rw [hA, hC, hvalue, decide_eq_decide]
  exact ⟨hvalid, by omega, by omega⟩

/-- Settles O23: likewise from `subDecimal_changesOnly`; a negative difference counts modulo 100 too. -/
theorem sbcDecimalSubtracts : Obligations.SbcDecimalSubtracts := by
  intro s b w op i f m t hform hm hD ht
  have hi := sbcForms_performs _ hform
  rw [← decimalDifference_eq] at ht
  refine ⟨hi.opcode_eq, _, _, _, _, _, _, (hi.sbc_decimal hm hD).trans
    (congrArg Host.Outcome.next (advance_of_decimal i.length (subDecimal_changesOnly m s))), fun ha hmv => ?_⟩
  obtain ⟨hA, hC⟩ := subDecimal_of_valid ha hmv
  obtain ⟨hvalid, hvalue⟩ := bcdByte_valid (n := (t % 100).toNat) (by omega)
  rw [hA, hC, ← ht, hvalue]
  exact ⟨hvalid, by omega, rfl⟩

/-- Settles O24: both immediate instructions are one binary addition; with C = 1 its result is `A - m`, and its carry the
comparison. -/
theorem sbcIsAdcOfComplement : Obligations.SbcIsAdcOfComplement := by
  intro s m hD
  refine ⟨(exec_sbcImm hD).trans (exec_adcImm hD).symm, fun hC => ⟨_, _, exec_sbcImm hD, exec_cmpImm, ?_⟩⟩
  have hzero : (s.regA - m == 0) = (s.regA == m) := by
    rw [beq_eq_decide, beq_eq_decide, decide_eq_decide]
    exact sub_eq_zero
  simp only [advance_flagN, advance_flagZ, advance_flagC, advance_flagV, advance_regA, addBinary_flagN, addBinary_flagZ,
    addBinary_flagC, compareWith_flagN, compareWith_flagZ, compareWith_flagC, compareWith_flagV, compareWith_regA, hC,
    binaryResult_complement, binaryCarry_complement, hzero, and_self]

/-- Settles O25: from `twoByteSum` and `twoByteOverflow`; the second ADC's carry in is the first one's carry out. -/
theorem carryChainsTwoByteAddition : Obligations.CarryChainsTwoByteAddition := by
  intro s u t v m n hsD huD hsC ht hcarry hv
  obtain rfl := Host.Outcome.next.inj ((exec_adcImm hsD).symm.trans ht)
  obtain rfl := Host.Outcome.next.inj ((exec_adcImm huD).symm.trans hv)
  simp only [advance_flagC, addBinary_flagC, hsC] at hcarry
  simp only [advance_regA, advance_flagC, advance_flagV, addBinary_regA, addBinary_flagC, addBinary_flagV, hsC, hcarry]
  exact ⟨twoByteSum s.regA u.regA m n, twoByteOverflow s.regA u.regA m n⟩

end Sys2Proof.Machine
end

section
/-! PROOFS. What D matters to: every operation but ADC, SBC and a push of the status byte goes on likewise under another D
(41_arithmetic.md R115, 10_state.md R28). -/

namespace Sys2Proof.Machine

/-- The operation goes on, to a state that differs from `t` at most in D. -/
def GoesOnLike (r : Result State) (t : State) : Prop :=
  ∃ u, r = .next u ∧ setD t.flagD u = t

theorem GoesOnLike.of_next {x t u : State} (h : (Host.Outcome.next x : Result State) = .next t)
    (hu : setD x.flagD u = x) : GoesOnLike (.next u) t := by
  cases h
  exact ⟨u, rfl, hu⟩

section Operations

variable {s t : State} (d : Bool)

/-! ### Addresses and operands do not depend on D -/

theorem MemForm.ea_setD (f : MemForm) (s : State) : f.ea (setD d s) = f.ea s := by
  cases f <;> rfl

theorem ReadForm.read_setD (f : ReadForm) (s : State) : f.read (setD d s) = f.read s := by
  cases f with
  | imm b => rfl
  | mem f =>
    rw [ReadForm.read, MemForm.ea_setD]
    rfl

/-! ### The shared operations -/

theorem withOperand_setD {f : ReadForm} {e : Byte → State → State} (h : withOperand f e s = .next t)
    (he : ∀ m, setD (e m s).flagD (e m (setD d s)) = e m s) : GoesOnLike (withOperand f e (setD d s)) t := by
  obtain ⟨m, hm, rfl⟩ := withOperand_eq_next.1 h
  exact ⟨_, withOperand_eq_next.2 ⟨m, (f.read_setD d s).trans hm, rfl⟩, congrArg (advance f.length) (he m)⟩

theorem storeOperand_setD {f : MemForm} {v : Byte} (h : storeOperand f v s = .next t) :
    GoesOnLike (storeOperand f v (setD d s)) t := by
  obtain ⟨a, hea, hplain, rfl⟩ := storeOperand_eq_next.1 h
  exact ⟨_, storeOperand_eq_next.2 ⟨a, (f.ea_setD d s).trans hea, hplain, rfl⟩, rfl⟩

theorem modifyMemory_setD {f : MemForm} {g : Byte → Byte} {e : Byte → State → State}
    (h : modifyMemory f g e s = .next t) (he : ∀ m u, setD (e m u).flagD (e m (setD d u)) = e m u) :
    GoesOnLike (modifyMemory f g e (setD d s)) t := by
  obtain ⟨a, hea, hplain, rfl⟩ := modifyMemory_eq_next.1 h
  exact ⟨_, modifyMemory_eq_next.2 ⟨a, (f.ea_setD d s).trans hea, hplain, rfl⟩,
    congrArg (fun u => advance f.length (setNZ (g (byteAt s a)) u)) (he (byteAt s a) (setMem (memAfterWrite a _ s) s))⟩

theorem modifyOperand_setD {f : ShiftForm} {g : Byte → Byte} {c : Byte → Bool}
    (h : modifyOperand f g (fun m u => setC (c m) u) s = .next t) :
    GoesOnLike (modifyOperand f g (fun m u => setC (c m) u) (setD d s)) t := by
  cases f with
  | acc => exact .of_next h rfl
  | mem f => exact modifyMemory_setD d h fun _ _ => rfl

theorem branch_setD {cond : Bool} {disp : Byte} (h : branch cond disp s = .next t) :
    GoesOnLike (branch cond disp (setD d s)) t := by
  cases cond <;> exact .of_next h rfl

/-- A jump whose target is read, and is the same under either D. -/
theorem jump_setD {r : Result Addr} (h : (andThen r fun target => .next (setPC target s)) = .next t) :
    GoesOnLike (andThen r fun target => .next (setPC target (setD d s))) t := by
  obtain ⟨a, rfl, ht⟩ := andThen_eq_next.1 h
  exact .of_next ht rfl

theorem execTxs_setD (h : execTxs s = .next t) : GoesOnLike (execTxs (setD d s)) t := by
  refine .of_next h ?_
  rw [setD_params]
  split <;> rfl

theorem execPha_setD (h : execPha s = .next t) : GoesOnLike (execPha (setD d s)) t := by
  obtain ⟨u, hu, ht⟩ := andThen_eq_next.1 h
  obtain ⟨hplain, rfl⟩ := push_eq_pushed.1 hu
  cases ht
  exact ⟨_, andThen_eq_next.2 ⟨_, push_eq_pushed.2 ⟨hplain, rfl⟩, rfl⟩, rfl⟩

/-- An instruction that pulls a byte and goes on with it: the byte is the same under either D. -/
theorem pullAndThen_setD {k : Byte × State → State} (h : (andThen (pull s) fun p => .next (k p)) = .next t)
    (hk : ∀ v u, setD (k (v, u)).flagD (k (v, setD d u)) = k (v, u)) :
    GoesOnLike (andThen (pull (setD d s)) fun p => .next (k p)) t := by
  obtain ⟨p, hp, ht⟩ := andThen_eq_next.1 h
  obtain ⟨hplain, rfl⟩ := pull_eq_next.1 hp
  cases ht
  exact ⟨_, andThen_eq_next.2 ⟨_, pull_eq_next.2 ⟨hplain, rfl⟩, rfl⟩, hk _ (setS (s.regS + 1) s)⟩

theorem execJsr_setD {w : Addr} (h : execJsr w s = .next t) : GoesOnLike (execJsr w (setD d s)) t := by
  obtain ⟨u, hu, ht⟩ := andThen_eq_next.1 h
  obtain ⟨hhi, hlo, rfl⟩ := pushPair_eq_next.1 hu
  cases ht
  exact ⟨_, andThen_eq_next.2 ⟨_, pushPair_eq_next.2 ⟨hhi, hlo, rfl⟩, rfl⟩, rfl⟩

theorem execRts_setD (h : execRts s = .next t) : GoesOnLike (execRts (setD d s)) t := by
  obtain ⟨p, hp, ht⟩ := andThen_eq_next.1 h
  obtain ⟨hlo, hhi, rfl⟩ := pullPair_eq_next.1 hp
  cases ht
  exact ⟨_, andThen_eq_next.2 ⟨_, pullPair_eq_next.2 ⟨hlo, hhi, rfl⟩, rfl⟩, rfl⟩

theorem returnFromInterrupt_setD (h : returnFromInterrupt s = .next t) :
    GoesOnLike (returnFromInterrupt (setD d s)) t := by
  obtain ⟨hstatus, hlo, hhi, rfl⟩ := returnFromInterrupt_eq_next.1 h
  exact ⟨_, returnFromInterrupt_eq_next.2 ⟨hstatus, hlo, hhi, rfl⟩, rfl⟩

/-! ### The operations that the forms of one mnemonic share -/

theorem loadA_setD {f : ReadForm} (h : loadA f s = .next t) : GoesOnLike (loadA f (setD d s)) t :=
  withOperand_setD d h fun _ => rfl

theorem loadX_setD {f : ReadForm} (h : loadX f s = .next t) : GoesOnLike (loadX f (setD d s)) t :=
  withOperand_setD d h fun _ => rfl

theorem loadY_setD {f : ReadForm} (h : loadY f s = .next t) : GoesOnLike (loadY f (setD d s)) t :=
  withOperand_setD d h fun _ => rfl

theorem andWithA_setD {f : ReadForm} (h : andWithA f s = .next t) : GoesOnLike (andWithA f (setD d s)) t :=
  withOperand_setD d h fun _ => rfl

theorem orWithA_setD {f : ReadForm} (h : orWithA f s = .next t) : GoesOnLike (orWithA f (setD d s)) t :=
  withOperand_setD d h fun _ => rfl

theorem eorWithA_setD {f : ReadForm} (h : eorWithA f s = .next t) : GoesOnLike (eorWithA f (setD d s)) t :=
  withOperand_setD d h fun _ => rfl

theorem compareA_setD {f : ReadForm} (h : compareA f s = .next t) : GoesOnLike (compareA f (setD d s)) t :=
  withOperand_setD d h fun _ => rfl

theorem compareX_setD {f : ReadForm} (h : compareX f s = .next t) : GoesOnLike (compareX f (setD d s)) t :=
  withOperand_setD d h fun _ => rfl

theorem compareY_setD {f : ReadForm} (h : compareY f s = .next t) : GoesOnLike (compareY f (setD d s)) t :=
  withOperand_setD d h fun _ => rfl

theorem storeA_setD {f : MemForm} (h : storeA f s = .next t) : GoesOnLike (storeA f (setD d s)) t :=
  storeOperand_setD d h

theorem storeX_setD {f : MemForm} (h : storeX f s = .next t) : GoesOnLike (storeX f (setD d s)) t :=
  storeOperand_setD d h

theorem storeY_setD {f : MemForm} (h : storeY f s = .next t) : GoesOnLike (storeY f (setD d s)) t :=
  storeOperand_setD d h

theorem incrementMemory_setD {f : MemForm} (h : incrementMemory f s = .next t) : GoesOnLike (incrementMemory f (setD d s)) t :=
  modifyMemory_setD d h fun _ _ => rfl

theorem decrementMemory_setD {f : MemForm} (h : decrementMemory f s = .next t) : GoesOnLike (decrementMemory f (setD d s)) t :=
  modifyMemory_setD d h fun _ _ => rfl

theorem shiftLeft_setD {f : ShiftForm} (h : shiftLeft f s = .next t) : GoesOnLike (shiftLeft f (setD d s)) t :=
  modifyOperand_setD d h

theorem shiftRight_setD {f : ShiftForm} (h : shiftRight f s = .next t) : GoesOnLike (shiftRight f (setD d s)) t :=
  modifyOperand_setD d h

theorem rotateLeft_setD {f : ShiftForm} (h : rotateLeft f s = .next t) : GoesOnLike (rotateLeft f (setD d s)) t :=
  modifyOperand_setD d h

theorem rotateRight_setD {f : ShiftForm} (h : rotateRight f s = .next t) : GoesOnLike (rotateRight f (setD d s)) t :=
  modifyOperand_setD d h

end Operations

/-- Settles O59: the instructions that write D (SED, CLD, PLP, RTI) write the same D in both runs; the others keep each run's
own. -/
theorem decimalModeMattersToAdcAndSbcOnly : Obligations.DecimalModeMattersToAdcAndSbcOnly := by
  intro i s t d hi h
  change GoesOnLike (exec i (setD d s)) t
  cases i <;> simp only [exec] at h ⊢
  case ldaImm | ldaZp | ldaZpX | ldaAbs | ldaAbsX | ldaAbsY | ldaIndX | ldaIndY => exact loadA_setD d h
  case ldxImm | ldxZp | ldxZpY | ldxAbs | ldxAbsY => exact loadX_setD d h
  case ldyImm | ldyZp | ldyZpX | ldyAbs | ldyAbsX => exact loadY_setD d h
  case staZp | staZpX | staAbs | staAbsX | staAbsY | staIndX | staIndY => exact storeA_setD d h
  case stxZp | stxZpY | stxAbs => exact storeX_setD d h
  case styZp | styZpX | styAbs => exact storeY_setD d h
  case incZp | incZpX | incAbs | incAbsX => exact incrementMemory_setD d h
  case decZp | decZpX | decAbs | decAbsX => exact decrementMemory_setD d h
  case aslA | aslZp | aslZpX | aslAbs | aslAbsX => exact shiftLeft_setD d h
  case lsrA | lsrZp | lsrZpX | lsrAbs | lsrAbsX => exact shiftRight_setD d h
  case rolA | rolZp | rolZpX | rolAbs | rolAbsX => exact rotateLeft_setD d h
  case rorA | rorZp | rorZpX | rorAbs | rorAbsX => exact rotateRight_setD d h
  case andImm | andZp | andZpX | andAbs | andAbsX | andAbsY | andIndX | andIndY => exact andWithA_setD d h
  case oraImm | oraZp | oraZpX | oraAbs | oraAbsX | oraAbsY | oraIndX | oraIndY => exact orWithA_setD d h
  case eorImm | eorZp | eorZpX | eorAbs | eorAbsX | eorAbsY | eorIndX | eorIndY => exact eorWithA_setD d h
  case cmpImm | cmpZp | cmpZpX | cmpAbs | cmpAbsX | cmpAbsY | cmpIndX | cmpIndY => exact compareA_setD d h
  case cpxImm | cpxZp | cpxAbs => exact compareX_setD d h
  case cpyImm | cpyZp | cpyAbs => exact compareY_setD d h
  case bitImm | bitZp | bitAbs => exact withOperand_setD d h fun _ => rfl
  case bcc | bcs | beq | bmi | bne | bpl | bvc | bvs => exact branch_setD d h
  case inx | iny | dex | dey | tax | txa | tay | tya | tsx | jmpAbs | sec | sed | sei | clc | cld | cli | clv | nop =>
    exact .of_next h rfl
  case txs => exact execTxs_setD d h
  case pha => exact execPha_setD d h
  case pla | plp => exact pullAndThen_setD d h fun _ _ => rfl
  case jmpInd | jmpIndAbsX => exact jump_setD d h
  case jsr => exact execJsr_setD d h
  case rts => exact execRts_setD d h
  case rti => exact returnFromInterrupt_setD d h
  case adcImm | adcZp | adcZpX | adcAbs | adcAbsX | adcAbsY | adcIndX | adcIndY | sbcImm | sbcZp | sbcZpX | sbcAbs |
      sbcAbsX | sbcAbsY | sbcIndX | sbcIndY | php | brk => exact absurd (by simp [Instr.mnemonic]) hi

end Sys2Proof.Machine
end

section
/-! PROOFS. Increment and decrement (42_inc_dec.md R120 to R125): what an instruction that reads a byte, changes it and writes it
back does at a plain address, and the two counts modulo 256. -/

namespace Sys2Proof.Machine

/-! ### In memory (R120, R123) -/

section ReadModifyWrite

variable {op : Byte} {i : Instr} {f : MemForm}

/-- Each row's instruction is the read-modify-write of its form with the row's function, with no flags but N and Z. -/
theorem incDecForms_performs {b : Byte} {w : Addr} :
    ∀ row ∈ Claims.incDecForms b w,
      Performs row.2.1 row.1 row.2.2.1.length (modifyMemory row.2.2.1 row.2.2.2 fun _ t => t) := by
  intro row hrow
  fin_cases hrow <;> exact ⟨rfl, rfl, fun _ => rfl⟩

/-- An instruction that modifies memory goes on at a plain address, where both its read and its write are allowed. -/
theorem Performs.next_of_ea {g : Byte → Byte} {flags : Byte → State → State} {s : State} {a : Addr}
    (hi : Performs i op f.length (modifyMemory f g flags)) (hea : f.ea s = .next a) (hplain : s.isPlain a = true) :
    exec i s = .next (advance i.length
      (setNZ (g (byteAt s a)) (flags (byteAt s a) (setMem (memAfterWrite a (g (byteAt s a)) s) s)))) := by
  rw [hi.exec_eq, hi.length_eq]
  exact modifyMemory_eq_next.2 ⟨a, hea, hplain, rfl⟩

end ReadModifyWrite

/-- Settles O26: `next_of_ea` gives the next state, whose memory is `s`'s after the one write. -/
theorem incAndDecModifyMemory : Obligations.IncAndDecModifyMemory := by
  intro s b w op i f r a hform hea hplain
  have hi := incDecForms_performs _ hform
  exact ⟨hi.opcode_eq, _, hi.next_of_ea hea hplain, rfl, byteAt_memAfterWrite rfl⟩

/-! ### Of an index register (R121, R122, R124, R125) -/

theorem eq_add_one_iff {r x : Byte} : r = x + 1 ↔ r.toNat = (x.toNat + 1) % 256 := by
  rw [← BitVec.toNat_inj, BitVec.toNat_add]
  rfl

/-- A byte counts down modulo 256, so from 0 to 255: the remainder of the difference of integers. -/
theorem eq_sub_one_iff {r x : Byte} : r = x - 1 ↔ (r.toNat : Int) = ((x.toNat : Int) - 1) % 256 := by
  have hone : (1 : Byte).toNat = 1 := rfl
  rw [← BitVec.toNat_inj, BitVec.toNat_sub, hone]
  omega

/-- Settles O27: the result is the register plus or minus one as a byte, which is what the instruction writes. -/
theorem indexIncrementAndDecrement : Obligations.IndexIncrementAndDecrement := by
  intro s r
  refine ⟨⟨rfl, rfl, rfl, rfl⟩, fun hinx => ?_, fun hiny => ?_, fun hdex => ?_, fun hdey => ?_⟩
  · obtain rfl := eq_add_one_iff.2 hinx
    rfl
  · obtain rfl := eq_add_one_iff.2 hiny
    rfl
  · obtain rfl := eq_sub_one_iff.2 hdex
    rfl
  · obtain rfl := eq_sub_one_iff.2 hdey
    rfl

end Sys2Proof.Machine
end

section
/-! PROOFS. Shift and rotate (43_shift_rotate.md R130 to R133). The four results are first numbers; then one operation, which the
four share, is run in mode A and on memory; then the carry and A are the nine bits that ROL and ROR rotate. -/

namespace Sys2Proof.Machine

/-! ### The results as numbers -/

theorem aslByte_toNat (m : Byte) : (aslByte m).toNat = (2 * m.toNat) % 256 := by
  rw [aslByte, BitVec.toNat_shiftLeft, Nat.shiftLeft_eq, Nat.mul_comm]

theorem lsrByte_toNat (m : Byte) : (lsrByte m).toNat = m.toNat / 2 := by
  rw [lsrByte, BitVec.toNat_ushiftRight, Nat.shiftRight_one]

/-- The carry enters below the shifted bits, so the disjunction is a sum (R132). -/
theorem rolByte_toNat (m : Byte) (c : Bool) :
    (rolByte m c).toNat = (2 * m.toNat) % 256 + (if c then 1 else 0) := by
  have hshifted : (2 * m.toNat) % 256 = 2 ^ 1 * (m.toNat % 128) := by omega
  have hcarry : (BitVec.ofNat 8 (bit c)).toNat = if c then 1 else 0 := by cases c <;> rfl
  have hlow : (if c then 1 else 0) < 2 ^ 1 := by cases c <;> decide
  rw [rolByte, BitVec.toNat_or, ← aslByte, aslByte_toNat, hshifted, hcarry, Nat.two_pow_add_eq_or_of_lt hlow]

/-- The carry enters above the shifted bits, so the disjunction is a sum (R133). -/
theorem rorByte_toNat (m : Byte) (c : Bool) :
    (rorByte m c).toNat = m.toNat / 2 + (if c then 128 else 0) := by
  have hcarry : (BitVec.ofNat 8 (128 * bit c)).toNat = 2 ^ 7 * bit c := by cases c <;> rfl
  have hentered : (if c then 128 else 0) = 2 ^ 7 * bit c := by cases c <;> rfl
  have hlow : m.toNat / 2 < 2 ^ 7 := by have := m.isLt; omega
  rw [rorByte, BitVec.toNat_or, ← lsrByte, lsrByte_toNat, hcarry, hentered, Nat.or_comm,
    ← Nat.two_pow_add_eq_or_of_lt hlow, Nat.add_comm]

/-! ### One operation for the four -/

/-- What the four have in common: a byte `m` becomes `result m C`, and C takes bit `out` of `m`. -/
def shiftOperand (result : Byte → Bool → Byte) (out : Nat) (f : ShiftForm) (s : State) : Result State :=
  modifyOperand f (fun m => result m s.flagC) (fun m t => setC (m.getLsbD out) t) s

/-- `i` has opcode byte `op` and shifts what `f` names: from a byte `m` and the carry `c` it makes the byte of value `n`
and the carry `c'`. -/
def Shifts (i : Instr) (op : Byte) (f : ShiftForm) (m : Byte) (c : Bool) (n : Nat) (c' : Bool) : Prop :=
  ∃ result out, Performs i op f.length (shiftOperand result out f) ∧ (result m c).toNat = n ∧ m.getLsbD out = c'

section Shift

variable {i : Instr} {op : Byte} {f : ShiftForm} (m : Byte) (c : Bool)

theorem shifts_of_shiftLeft (h : Performs i op f.length (shiftLeft f)) :
    Shifts i op f m c ((2 * m.toNat) % 256) (m.getLsbD 7) :=
  ⟨fun m _ => aslByte m, 7, h, aslByte_toNat m, rfl⟩

theorem shifts_of_shiftRight (h : Performs i op f.length (shiftRight f)) :
    Shifts i op f m c (m.toNat / 2) (m.getLsbD 0) :=
  ⟨fun m _ => lsrByte m, 0, h, lsrByte_toNat m, rfl⟩

theorem shifts_of_rotateLeft (h : Performs i op f.length (rotateLeft f)) :
    Shifts i op f m c ((2 * m.toNat) % 256 + (if c then 1 else 0)) (m.getLsbD 7) :=
  ⟨rolByte, 7, h, rolByte_toNat m c, rfl⟩

theorem shifts_of_rotateRight (h : Performs i op f.length (rotateRight f)) :
    Shifts i op f m c (m.toNat / 2 + (if c then 128 else 0)) (m.getLsbD 0) :=
  ⟨rorByte, 0, h, rorByte_toNat m c, rfl⟩

end Shift

theorem accumulatorShifts_shifts {s : State} :
    ∀ row ∈ Claims.accumulatorShifts s, Shifts row.2.1 row.1 .acc s.regA s.flagC row.2.2.1 row.2.2.2 := by
  intro row hrow
  fin_cases hrow
  · exact shifts_of_shiftLeft _ _ ⟨rfl, rfl, fun _ => rfl⟩
  · exact shifts_of_shiftRight _ _ ⟨rfl, rfl, fun _ => rfl⟩
  · exact shifts_of_rotateLeft _ _ ⟨rfl, rfl, fun _ => rfl⟩
  · exact shifts_of_rotateRight _ _ ⟨rfl, rfl, fun _ => rfl⟩

/-- The table has four forms of each of the four shifts. -/
theorem memoryShifts_shifts {s : State} {b : Byte} {w : Addr} {m : Byte} :
    ∀ row ∈ Claims.memoryShifts s b w m,
      Shifts row.2.1 row.1 (.mem row.2.2.1) m s.flagC row.2.2.2.1 row.2.2.2.2 := by
  intro row hrow
  fin_cases hrow
  iterate 4 exact shifts_of_shiftLeft _ _ ⟨rfl, rfl, fun _ => rfl⟩
  iterate 4 exact shifts_of_shiftRight _ _ ⟨rfl, rfl, fun _ => rfl⟩
  iterate 4 exact shifts_of_rotateLeft _ _ ⟨rfl, rfl, fun _ => rfl⟩
  iterate 4 exact shifts_of_rotateRight _ _ ⟨rfl, rfl, fun _ => rfl⟩

/-- Settles O28: in mode A the operation goes on from every state, for it makes no memory access. -/
theorem shiftsOfTheAccumulator : Obligations.ShiftsOfTheAccumulator := by
  intro s op i n c r hrow hr
  obtain ⟨result, out, hi, hn, rfl⟩ := accumulatorShifts_shifts _ hrow
  obtain rfl : r = result s.regA s.flagC := BitVec.eq_of_toNat_eq (hr.trans hn.symm)
  exact ⟨hi.opcode_eq, hi.exec_eq s⟩

/-- Settles O29: a read-modify-write of the one byte, with C taking the bit that leaves. -/
theorem shiftsOfMemory : Obligations.ShiftsOfMemory := by
  intro s b w op i f n c a r hrow hea hplain hr
  obtain ⟨result, out, hi, hn, rfl⟩ := memoryShifts_shifts _ hrow
  obtain rfl : r = result (byteAt s a) s.flagC := BitVec.eq_of_toNat_eq (hr.trans hn.symm)
  have hexec := (hi.exec_eq s).trans (modifyMemory_eq_next.2 ⟨a, hea, hplain, rfl⟩)
  refine ⟨hi.opcode_eq, _, hexec, ?_, byteAt_memAfterWrite rfl⟩
  rw [Claims.nextPC, hi.length_eq]
  rfl

/-! ### Rotation by one, as often as there are bits -/

/-- Rotation to the left moves each bit up by one, and the top bit to the bottom. -/
theorem getLsbD_rotateLeft_one {w k : Nat} (x : BitVec w) (hk : k < w) :
    (x.rotateLeft 1).getLsbD ((k + 1) % w) = x.getLsbD k := by
  rw [BitVec.getLsbD_rotateLeft]
  obtain rfl | hw : w = 1 ∨ 1 < w := by omega
  · obtain rfl : k = 0 := by omega
    simp
  rw [Nat.mod_eq_of_lt hw]
  obtain rfl | hlt : k = w - 1 ∨ k + 1 < w := by omega
  · simp [Nat.sub_add_cancel hw.le]
  · simp [Nat.mod_eq_of_lt hlt, hlt]

/-- Rotation to the right moves each bit down by one, and the bottom bit to the top. -/
theorem getLsbD_rotateRight_one {w k : Nat} (x : BitVec w) (hk : k < w) :
    (x.rotateRight 1).getLsbD k = x.getLsbD ((k + 1) % w) := by
  rw [BitVec.getLsbD_rotateRight]
  obtain rfl | hw : w = 1 ∨ 1 < w := by omega
  · obtain rfl : k = 0 := by omega
    simp
  rw [Nat.mod_eq_of_lt hw]
  obtain rfl | hlt : k = w - 1 ∨ k + 1 < w := by omega
  · simp [Nat.sub_add_cancel hw.le, hk]
  · simp [Nat.mod_eq_of_lt hlt, Nat.lt_sub_of_add_lt hlt, Nat.add_comm]

theorem getLsbD_iterate_rotateLeft_one {w k : Nat} (x : BitVec w) (hk : k < w) (n : Nat) :
    ((BitVec.rotateLeft · 1)^[n] x).getLsbD ((k + n) % w) = x.getLsbD k := by
  induction n with
  | zero => rw [Nat.add_zero, Nat.mod_eq_of_lt hk, Function.iterate_zero_apply]
  | succ n ih =>
    have hlt : (k + n) % w < w := Nat.mod_lt _ (Nat.zero_lt_of_lt hk)
    rw [Function.iterate_succ_apply', ← ih, ← getLsbD_rotateLeft_one _ hlt, Nat.mod_add_mod, Nat.add_assoc]

theorem iterate_rotateLeft_one {w : Nat} (x : BitVec w) : (BitVec.rotateLeft · 1)^[w] x = x := by
  apply BitVec.eq_of_getLsbD_eq
  intro k hk
  have hround := getLsbD_iterate_rotateLeft_one x hk w
  rwa [Nat.add_mod_right, Nat.mod_eq_of_lt hk] at hround

theorem rotateRight_one_rotateLeft_one {w : Nat} (x : BitVec w) : (x.rotateLeft 1).rotateRight 1 = x := by
  apply BitVec.eq_of_getLsbD_eq
  intro k hk
  rw [getLsbD_rotateRight_one _ hk, getLsbD_rotateLeft_one x hk]

/-- Rotation to the right undoes rotation to the left. -/
theorem iterate_rotateRight_one {w : Nat} (x : BitVec w) : (BitVec.rotateRight · 1)^[w] x = x := by
  have hinv : Function.LeftInverse (BitVec.rotateRight · 1) fun y : BitVec w => y.rotateLeft 1 :=
    rotateRight_one_rotateLeft_one
  simpa only [iterate_rotateLeft_one] using hinv.iterate w x

/-! ### C and A as the nine bits that ROL and ROR rotate (R132, R133) -/

/-- C and A as nine bits, C in front. -/
def carryAndA (s : State) : BitVec 9 := .cons s.flagC s.regA

theorem regA_flagC_eq_of_carryAndA_eq {s t : State} (h : carryAndA t = carryAndA s) :
    t.regA = s.regA ∧ t.flagC = s.flagC := by
  have hA := congrArg (BitVec.setWidth 8) h
  have hC := congrArg BitVec.msb h
  rw [carryAndA, carryAndA, BitVec.setWidth_cons, BitVec.setWidth_cons] at hA
  rw [carryAndA, carryAndA, BitVec.msb_cons, BitVec.msb_cons] at hC
  exact ⟨hA, hC⟩

/-- Rotation to the left takes the front bit to the end. -/
theorem rotateLeft_one_cons (c : Bool) (m : Byte) : (BitVec.cons c m).rotateLeft 1 = m.concat c := by
  ext k hk
  rw [BitVec.getElem_rotateLeft, BitVec.getElem_concat]
  cases k with
  | zero => simp [BitVec.getElem_cons]
  | succ k =>
    have hne : k ≠ 8 := by omega
    simp [BitVec.getElem_cons, hne]

/-- ROL puts the carry at the end, and bit 7 is then in front. -/
theorem cons_rolByte (m : Byte) (c : Bool) :
    BitVec.cons (m.getLsbD 7) (rolByte m c) = (BitVec.cons c m).rotateLeft 1 := by
  have htop : (m.getLsbD 7).toNat = m.toNat / 2 ^ 7 % 2 := Nat.toNat_testBit m.toNat 7
  have hcarry : (if c then 1 else 0) = c.toNat := by cases c <;> rfl
  have hm := m.isLt
  rw [rotateLeft_one_cons]
  apply BitVec.eq_of_toNat_eq
  rw [BitVec.toNat_cons', BitVec.toNat_concat, rolByte_toNat, Nat.shiftLeft_eq, htop, hcarry]
  omega

/-- ROR puts the carry in front, and bit 0 is then at the end. -/
theorem concat_rorByte (m : Byte) (c : Bool) : (rorByte m c).concat (m.getLsbD 0) = BitVec.cons c m := by
  have hbottom : (m.getLsbD 0).toNat = m.toNat / 2 ^ 0 % 2 := Nat.toNat_testBit m.toNat 0
  have hcarry : (if c then 128 else 0) = 128 * c.toNat := by cases c <;> rfl
  apply BitVec.eq_of_toNat_eq
  rw [BitVec.toNat_cons', BitVec.toNat_concat, rorByte_toNat, Nat.shiftLeft_eq, hbottom, hcarry]
  omega

theorem cons_rorByte (m : Byte) (c : Bool) :
    BitVec.cons (m.getLsbD 0) (rorByte m c) = (BitVec.cons c m).rotateRight 1 := by
  rw [← concat_rorByte m c, ← rotateLeft_one_cons, rotateRight_one_rotateLeft_one]

/-- If each execution of `i` goes on and changes C and A by `rotation`, `n` executions change them by it `n` times. -/
theorem execTimes_carryAndA {i : Instr} (rotation : BitVec 9 → BitVec 9)
    (h : ∀ s, ∃ t, exec i s = .next t ∧ carryAndA t = rotation (carryAndA s)) (n : Nat) (s : State) :
    ∃ t, Claims.execTimes n i s = .next t ∧ carryAndA t = rotation^[n] (carryAndA s) := by
  induction n generalizing s with
  | zero => exact ⟨s, rfl, rfl⟩
  | succ n ih =>
    obtain ⟨u, hu, hrot⟩ := h s
    obtain ⟨t, ht, hiter⟩ := ih u
    refine ⟨t, ?_, ?_⟩
    · rw [Claims.execTimes, hu, andThen_next, ht]
    · rw [hiter, hrot, Function.iterate_succ_apply]

theorem exec_rolA_carryAndA (s : State) :
    ∃ t, exec .rolA s = .next t ∧ carryAndA t = (carryAndA s).rotateLeft 1 :=
  ⟨_, rfl, cons_rolByte s.regA s.flagC⟩

theorem exec_rorA_carryAndA (s : State) :
    ∃ t, exec .rorA s = .next t ∧ carryAndA t = (carryAndA s).rotateRight 1 :=
  ⟨_, rfl, cons_rorByte s.regA s.flagC⟩

/-- Settles O30: each execution rotates C and A, nine bits, by one, and nine such rotations are none. -/
theorem nineRotationsRestore : Obligations.NineRotationsRestore := by
  intro i hi s
  fin_cases hi
  · obtain ⟨t, ht, hcA⟩ := execTimes_carryAndA (BitVec.rotateLeft · 1) exec_rolA_carryAndA 9 s
    rw [iterate_rotateLeft_one] at hcA
    exact ⟨t, ht, regA_flagC_eq_of_carryAndA_eq hcA⟩
  · obtain ⟨t, ht, hcA⟩ := execTimes_carryAndA (BitVec.rotateRight · 1) exec_rorA_carryAndA 9 s
    rw [iterate_rotateRight_one] at hcA
    exact ⟨t, ht, regA_flagC_eq_of_carryAndA_eq hcA⟩

end Sys2Proof.Machine
end

section
/-! PROOFS. AND, ORA, EOR (44_logic.md R140 to R142). The three have one effect, which differs in the byte function alone. -/

namespace Sys2Proof.Machine

/-- `A <- g(A, m); SetNZ(A)`: the effect that R140, R141 and R142 share. -/
def combineWithA (g : Byte → Byte → Byte) (m : Byte) (s : State) : State := setNZ (g s.regA m) (setA (g s.regA m) s)

section Logic

variable {b : Byte} {w : Addr}

theorem andWithA_eq (f : ReadForm) : andWithA f = withOperand f (combineWithA fun x y => x &&& y) := rfl

theorem orWithA_eq (f : ReadForm) : orWithA f = withOperand f (combineWithA fun x y => x ||| y) := rfl

theorem eorWithA_eq (f : ReadForm) : eorWithA f = withOperand f (combineWithA fun x y => x ^^^ y) := rfl

/-- The table has eight forms of each mnemonic; the function in a row is the one its mnemonic's operation combines with. -/
theorem logicForms_performs :
    ∀ row ∈ Claims.logicForms b w,
      Performs row.2.1 row.1 row.2.2.1.length (withOperand row.2.2.1 (combineWithA row.2.2.2)) := by
  intro row hrow
  fin_cases hrow
  iterate 8 rw [← andWithA_eq]; exact ⟨rfl, rfl, fun _ => rfl⟩
  iterate 8 rw [← orWithA_eq]; exact ⟨rfl, rfl, fun _ => rfl⟩
  iterate 8 rw [← eorWithA_eq]; exact ⟨rfl, rfl, fun _ => rfl⟩

end Logic

/-- Settles O31: each form combines its operand with A, writes N and Z from the result, and then `PC <- next`. -/
theorem logicCombinesOperandWithA : Obligations.LogicCombinesOperandWithA := by
  intro s b w op i f g m hform hm
  have hi := logicForms_performs _ hform
  exact ⟨hi.opcode_eq, hi.next_of_read hm⟩

end Sys2Proof.Machine
end

section
/-! PROOFS. CMP, CPX, CPY, BIT (45_compare_bit.md R150 to R154). Each writes flags alone, by an effect with a parameter that
the state before it gives: the register compared, or whether N and V are written. -/

namespace Sys2Proof.Machine

/-- `i` has opcode byte `op` and acts on its operand by `effect`, with a parameter that each state gives; in `s` it is `p`. -/
def PerformsWith {α : Type} (effect : α → Byte → State → State) (i : Instr) (op : Byte) (f : ReadForm) (s : State)
    (p : α) : Prop :=
  ∃ value : State → α, value s = p ∧ Performs i op f.length (withOperand f fun m t => effect (value t) m t)

section PerformsWith

variable {α : Type} {effect : α → Byte → State → State} {i : Instr} {op : Byte} {f : ReadForm} {s : State} {p : α}

theorem PerformsWith.opcode_eq (hi : PerformsWith effect i op f s p) : i.opcode = op := by
  obtain ⟨value, -, hperforms⟩ := hi
  exact hperforms.opcode_eq

/-- Where its operand can be read, such an instruction goes on: its effect with the parameter that `s` gives,
then `PC <- next`. -/
theorem PerformsWith.next_of_read {m : Byte} (hi : PerformsWith effect i op f s p) (hm : f.read s = .next m) :
    exec i s = .next (advance i.length (effect p m s)) := by
  obtain ⟨value, rfl, hperforms⟩ := hi
  exact hperforms.next_of_read hm

end PerformsWith

section Forms

variable {s : State} {b : Byte} {w : Addr}

/-- The table has eight forms of CMP, which compares A, and three each of CPX and CPY (R151, R152, R153). -/
theorem compareForms_performs :
    ∀ row ∈ Claims.compareForms s b w, PerformsWith compareWith row.2.1 row.1 row.2.2.1 s row.2.2.2 := by
  intro row hrow
  fin_cases hrow
  iterate 8 exact ⟨State.regA, rfl, rfl, rfl, fun _ => rfl⟩
  iterate 3 exact ⟨State.regX, rfl, rfl, rfl, fun _ => rfl⟩
  iterate 3 exact ⟨State.regY, rfl, rfl, rfl, fun _ => rfl⟩

/-- The parameter decides in mode `#` alone; the two forms that read memory write N and V in every state (R154). -/
theorem bitForms_performs :
    ∀ row ∈ Claims.bitForms s b w, PerformsWith testBits row.2.1 row.1 row.2.2.1 s row.2.2.2 := by
  intro row hrow
  fin_cases hrow
  · exact ⟨fun t => t.params.bitImmWritesNV, rfl, rfl, rfl, fun _ => rfl⟩
  · exact ⟨fun _ => true, rfl, rfl, rfl, fun _ => rfl⟩
  · exact ⟨fun _ => true, rfl, rfl, rfl, fun _ => rfl⟩

end Forms

/-! ### The flags -/

/-- The difference of two bytes is the remainder modulo 256 of the difference of integers (R150). -/
theorem eq_sub_iff {t r m : Byte} : t = r - m ↔ (t.toNat : Int) = ((r.toNat : Int) - m.toNat) % 256 := by
  have hm := m.isLt
  rw [← BitVec.toNat_inj, BitVec.toNat_sub]
  omega

/-- `Compare(r, m)` with `t` as the difference modulo 256 (R150). -/
theorem compareWith_eq {r m t : Byte} (s : State) (ht : (t.toNat : Int) = ((r.toNat : Int) - m.toNat) % 256) :
    compareWith r m s =
      { s with flagC := decide (m.toNat ≤ r.toNat), flagZ := decide (r = m), flagN := t.getLsbD 7 } := by
  obtain rfl := eq_sub_iff.2 ht
  rw [compareWith, beq_eq_decide]

/-- Settles O32: each form is `compareWith` on its register, then `PC <- next`. -/
theorem compareSetsFlagsOnly : Obligations.CompareSetsFlagsOnly := by
  intro s b w op i f r m t hform hm ht
  have hi := compareForms_performs _ hform
  refine ⟨hi.opcode_eq, ?_⟩
  rw [hi.next_of_read hm, compareWith_eq s ht]
  rfl

/-- Settles O33: each form is `testBits` with its row's choice about N and V, then `PC <- next`. -/
theorem bitTestsTheOperand : Obligations.BitTestsTheOperand := by
  intro s b w op i f writes m hform hm
  have hi := bitForms_performs _ hform
  refine ⟨hi.opcode_eq, ?_⟩
  rw [hi.next_of_read hm, testBits, beq_eq_decide]
  rfl

end Sys2Proof.Machine
end

section
/-! PROOFS. The eight branches (46_branch.md R160 to R168). They differ in the condition alone; where a branch goes is proved
once, for both values of the condition. -/

namespace Sys2Proof.Machine

/-- The 16-bit sum is the sum of integers modulo 65536, with the displacement as a signed byte: it wraps in both directions
(R160). -/
theorem add_two_add_sext16 (pc : Addr) (disp : Byte) :
    pc + 2 + sext16 disp = BitVec.ofInt 16 ((pc.toNat : Int) + 2 + disp.toInt) := by
  have hpc : BitVec.ofInt 16 pc.toNat = pc := by rw [BitVec.ofInt_natCast, BitVec.ofNat_toNat, BitVec.setWidth_eq]
  rw [BitVec.ofInt_add, BitVec.ofInt_add, hpc]
  rfl

/-- `Branch(cond)` goes on, and PC is all that it writes (R160). -/
theorem branch_eq (cond : Bool) (disp : Byte) (s : State) :
    branch cond disp s = .next { s with
      pc := if cond then BitVec.ofInt 16 ((s.pc.toNat : Int) + 2 + disp.toInt) else s.pc + 2 } := by
  cases cond with
  | false => rfl
  | true => rw [if_pos rfl, ← add_two_add_sext16]; rfl

/-- Each row gives the opcode byte and the condition of its rule (R161 to R168). -/
theorem branchForms_branch {s : State} {disp : Byte} :
    ∀ row ∈ Claims.branchForms s disp, row.2.1.opcode = row.1 ∧ exec row.2.1 s = branch row.2.2 disp s := by
  intro row hrow
  fin_cases hrow <;> exact ⟨rfl, rfl⟩

/-- Settles O34: each form is `Branch` on its row's condition. -/
theorem branchesGoWhereTheDisplacementSays : Obligations.BranchesGoWhereTheDisplacementSays := by
  intro s disp op i taken hform
  obtain ⟨hopcode, hexec⟩ := branchForms_branch _ hform
  exact ⟨hopcode, hexec.trans (branch_eq taken disp s)⟩

end Sys2Proof.Machine
end

section
/-! PROOFS. Transfers, pushes and pulls (47_transfer_stack.md R170 to R179). What a push and a pull answer at a plain stack byte
is said once; each stack instruction then goes on from there. -/

namespace Sys2Proof.Machine

/-! ### The stack (R34, R35) -/

theorem push_plain {v : Byte} {s : State} (h : s.isPlain (stackAddr s.regS) = true) : push v s = .next (pushed v s) :=
  push_eq_pushed.2 ⟨h, rfl⟩

/-- The byte comes from above S: with S = 0xFF from 0x0100, because S wraps and not the address (R35). -/
theorem pull_plain {s : State} (h : s.isPlain (stackAddr (s.regS + 1)) = true) :
    pull s = .next (byteAt s (stackAddr (s.regS + 1)), setS (s.regS + 1) s) :=
  pull_eq_next.2 ⟨h, rfl⟩

theorem andThen_pull_plain {β : Type} {k : Byte × State → Result β} {s : State}
    (h : s.isPlain (stackAddr (s.regS + 1)) = true) :
    andThen (pull s) k = k (byteAt s (stackAddr (s.regS + 1)), setS (s.regS + 1) s) := by
  rw [pull_plain h, andThen_next]

/-- Each row's instruction pushes the row's byte, then `PC <- next`; PHP's byte is the status with bits 5 and 4 set (R176, R178). -/
theorem pushForms_push {s : State} :
    ∀ row ∈ Claims.pushForms s, row.2.1.opcode = row.1 ∧
      exec row.2.1 s = andThen (push row.2.2 s) fun t => .next (advance 1 t) := by
  intro row hrow
  fin_cases hrow
  · exact ⟨rfl, rfl⟩
  · exact ⟨rfl, rfl⟩

/-- Settles O38: each form goes on to the state after the push, whose memory is `s`'s after the one write. -/
theorem phaAndPhpPush : Obligations.PhaAndPhpPush := by
  intro s op i v hform hplain
  obtain ⟨hopcode, hexec⟩ := pushForms_push _ hform
  have hnext : exec i s = .next (advance 1 (pushed v s)) := by
    rw [hexec, push_plain hplain, andThen_next]
  exact ⟨stackAddr_toNat s.regS, hopcode, _, hnext, rfl, byteAt_memAfterWrite rfl⟩

/-- Settles O39: PLA is a pull, then `setA` and `setNZ` of the byte pulled and `PC <- next`. -/
theorem plaPulls : Obligations.PlaPulls := by
  rintro s m hplain rfl
  exact ⟨rfl, andThen_pull_plain hplain⟩

/-- Settles O40: PLP is a pull, then `unpackP` of the byte pulled, `setPoll` of the I from before the pull and `PC <- next`. -/
theorem plpPullsTheFlags : Obligations.PlpPullsTheFlags := by
  rintro s v hplain rfl
  exact ⟨rfl, andThen_pull_plain hplain⟩

/-! ### Transfers (R170 to R175) -/

/-- Settles O35: each transfer is a register update, then `setNZ` of the same value, then `PC <- next`. -/
theorem transfersCopyAndSetNZ : Obligations.TransfersCopyAndSetNZ := by
  intro s
  exact ⟨⟨rfl, rfl, rfl, rfl, rfl⟩, rfl, rfl, rfl, rfl, rfl⟩

/-- Settles O36: by the two readings of the parameter; without it TXS is `setS` and `PC <- next` alone. -/
theorem txsSetsTheStackPointer : Obligations.TxsSetsTheStackPointer := by
  intro s
  refine ⟨rfl, show execTxs s = _ from ?_⟩
  rw [execTxs]
  cases s.params.txsWritesNZ with
  | false => rfl
  | true => rfl

end Sys2Proof.Machine
end

section
/-! PROOFS. Jumps, subroutine calls and returns (48_jump_subroutine.md R190 to R195). What JSR and the
two returns do where the stack is plain is said once; RTS after JSR is then the one after the other. -/

namespace Sys2Proof.Machine

/-! ### Counts of S -/

theorem sub_one_sub_one (b : Byte) : b - 1 - 1 = b - 2 := by bv_omega

theorem sub_one_sub_one_sub_one (b : Byte) : b - 1 - 1 - 1 = b - 3 := by bv_omega

theorem add_one_add_one (b : Byte) : b + 1 + 1 = b + 2 := by bv_omega

theorem add_one_add_one_add_one (b : Byte) : b + 1 + 1 + 1 = b + 3 := by bv_omega

/-- Stack bytes fewer than 256 apart are different bytes, also where S wraps. -/
theorem stackAddr_ne_sub {sp k : Byte} (hk : k ≠ 0) : stackAddr sp ≠ stackAddr (sp - k) := by
  rw [ne_eq, stackAddr_inj]
  bv_omega

/-! ### Jumps (R190 to R192) -/

/-- Without `JMP_IND_PAGE_WRAP` the pointer's high byte stands at the next address, else at the next one of the same page
(R77). -/
theorem eq_pointerHigh_iff {q w : Addr} {wrap : Bool} :
    q = (if wrap then joinBytes (hiByte w) (loByte w + 1) else w + 1) ↔
      q.toNat = if wrap then 256 * (w.toNat / 256) + (w.toNat + 1) % 256 else (w.toNat + 1) % 65536 := by
  cases wrap with
  | false => exact eq_add_zext16_iff (b := 1)
  | true =>
    rw [if_pos rfl, if_pos rfl, eq_joinBytes_iff, hiByte_toNat, BitVec.toNat_add, loByte_toNat, Nat.mod_add_mod]
    rfl

/-- Settles O41: the addresses that the modes read the pointer at, as numbers, and then `setPC` alone. -/
theorem jumpsGoToTheirTargets : Obligations.JumpsGoToTheirTargets := by
  intro s w p q target
  refine ⟨rfl, rfl, rfl, rfl, fun hp hq htarget => ?_⟩
  rw [← eq_joinBytes_iff] at htarget
  refine ⟨fun hsum hnext => ?_, fun hlow hhigh => ?_⟩
  · obtain rfl := eq_add_zext16_iff.2 hsum
    subst hnext
    exact andThen_eq_next.2 ⟨target, indexedIndirectTarget_eq_next.2 ⟨hp, hq, htarget⟩, rfl⟩
  · subst hlow
    obtain rfl := eq_pointerHigh_iff.2 hhigh
    exact andThen_eq_next.2 ⟨target, indirectTarget_eq_next.2 ⟨hp, hq, htarget⟩, rfl⟩

/-! ### JSR and RTS (R193, R194) -/

/-- The two bytes that a push of a 16-bit value leaves; every other byte reads as before. -/
theorem byteAt_pushed_pushed (lo hi : Byte) (s : State) (x : Addr) :
    byteAt (pushed lo (pushed hi s)) x =
      if x = stackAddr (s.regS - 1) ∧ s.isRam x = true then lo
      else if x = stackAddr s.regS ∧ s.isRam x = true then hi
      else byteAt s x := by
  simp only [byteAt_pushed, pushed_regS, isRam_pushed]

theorem exec_jsr_eq_next {w : Addr} {s t : State} :
    exec (.jsr w) s = .next t ↔
      s.isPlain (stackAddr s.regS) = true ∧ s.isPlain (stackAddr (s.regS - 1)) = true ∧
      t = setPC w (pushed (loByte (s.pc + 2)) (pushed (hiByte (s.pc + 2)) s)) := by
  simp only [exec, execJsr, andThen_eq_next, pushPair_eq_next, Host.Outcome.next.injEq]
  constructor
  · rintro ⟨u, ⟨hhi, hlo, rfl⟩, rfl⟩
    exact ⟨hhi, hlo, rfl⟩
  · rintro ⟨hhi, hlo, rfl⟩
    exact ⟨_, ⟨hhi, hlo, rfl⟩, rfl⟩

/-- What JSR answers, where it goes on: the registers and flags, and each byte of memory. -/
theorem jsr_effect {w : Addr} {s t : State} (h : exec (.jsr w) s = .next t) :
    t = { s with mem := t.mem, regS := s.regS - 2, pc := w } ∧
    ∀ x, byteAt t x =
      if x = stackAddr (s.regS - 1) ∧ s.isRam x = true then loByte (s.pc + 2)
      else if x = stackAddr s.regS ∧ s.isRam x = true then hiByte (s.pc + 2)
      else byteAt s x := by
  obtain ⟨-, -, rfl⟩ := exec_jsr_eq_next.1 h
  refine ⟨?_, byteAt_pushed_pushed _ _ s⟩
  rw [← sub_one_sub_one]
  rfl

/-- Settles O42: two pushes go on at plain stack bytes, and `jsr_effect` says where to. -/
theorem jsrSavesTheReturnAddress : Obligations.JsrSavesTheReturnAddress := by
  intro s w hhi hlo
  have hexec := exec_jsr_eq_next (w := w).2 ⟨hhi, hlo, rfl⟩
  exact ⟨rfl, _, hexec, jsr_effect hexec⟩

theorem rts_plain {s : State} (hlo : s.isPlain (stackAddr (s.regS + 1)) = true)
    (hhi : s.isPlain (stackAddr (s.regS + 2)) = true) :
    exec .rts s = .next { s with
      pc := joinBytes (byteAt s (stackAddr (s.regS + 2))) (byteAt s (stackAddr (s.regS + 1))) + 1,
      regS := s.regS + 2 } := by
  rw [← add_one_add_one] at hhi ⊢
  exact andThen_eq_next.2 ⟨_, pullPair_eq_next.2 ⟨hlo, hhi, rfl⟩, rfl⟩

theorem rti_plain {s : State} {v : Byte} (hv : s.isPlain (stackAddr (s.regS + 1)) = true)
    (hlo : s.isPlain (stackAddr (s.regS + 2)) = true) (hhi : s.isPlain (stackAddr (s.regS + 3)) = true)
    (hstatus : v = byteAt s (stackAddr (s.regS + 1))) :
    exec .rti s = .next { s with
      flagN := v.getLsbD 7, flagV := v.getLsbD 6, flagD := v.getLsbD 3, flagI := v.getLsbD 2, flagZ := v.getLsbD 1,
      flagC := v.getLsbD 0,
      pc := joinBytes (byteAt s (stackAddr (s.regS + 3))) (byteAt s (stackAddr (s.regS + 2))), regS := s.regS + 3 } := by
  subst hstatus
  rw [← add_one_add_one] at hlo ⊢
  rw [← add_one_add_one_add_one] at hhi ⊢
  exact returnFromInterrupt_eq_next.2 ⟨hv, hlo, hhi, rfl⟩

/-- Settles O43: `rts_plain` and `rti_plain`; RTI is not one of the three that delay `i_poll`. -/
theorem rtsAndRtiReturn : Obligations.RtsAndRtiReturn := by
  intro s v lo hi
  refine ⟨rfl, rfl, ?_, ?_, fun t h hhw => ?_⟩
  · rintro hplo hphi rfl rfl
    exact rts_plain hplo hphi
  · rintro hpv hplo hphi hv rfl rfl
    exact rti_plain hpv hplo hphi hv
  · have hparams : t.params = s.params := exec_keeps h (q := .params) rfl
    exact (setPoll_iPoll t.flagI t).trans (if_pos (hparams ▸ hhw))

/-- RTS after JSR: JSR left S two lower and `PC + 2` in the two bytes that RTS pulls, and RTS adds the missing one (R193). -/
theorem rts_after_jsr {w : Addr} {s t : State} (hram0 : s.isRam (stackAddr s.regS) = true)
    (hram1 : s.isRam (stackAddr (s.regS - 1)) = true) (h : exec (.jsr w) s = .next t) :
    exec .rts t = .next { s with mem := t.mem, pc := s.pc + 3 } := by
  obtain ⟨ht, hbytes⟩ := jsr_effect h
  have hplain (a : Addr) (hram : s.isRam a = true) : t.isPlain a = true :=
    (isPlain_congr (exec_keeps h (q := .params) rfl) a).trans (isPlain_of_isRam hram)
  have hS : t.regS = s.regS - 2 := congrArg State.regS ht
  have hlow : t.regS + 1 = s.regS - 1 := by bv_omega
  have hhigh : t.regS + 2 = s.regS := by bv_omega
  have hlo : byteAt t (stackAddr (s.regS - 1)) = loByte (s.pc + 2) := by
    rw [hbytes, if_pos ⟨rfl, hram1⟩]
  have hhi : byteAt t (stackAddr s.regS) = hiByte (s.pc + 2) := by
    rw [hbytes, if_neg fun h => stackAddr_ne_sub (by decide) h.1, if_pos ⟨rfl, hram0⟩]
  have hpc : s.pc + 2 + 1 = s.pc + 3 := by bv_omega
  rw [rts_plain (hlow ▸ hplain _ hram1) (hhigh ▸ hplain _ hram0), hlow, hhigh, hlo, hhi, joinBytes_hi_lo, hpc, ht]

/-- Settles O44: the state that `rts_after_jsr` gives. -/
theorem rtsUndoesJsr : Obligations.RtsUndoesJsr := by
  intro s t w hram0 hram1 h
  exact ⟨_, rts_after_jsr hram0 hram1 h, rfl⟩

end Sys2Proof.Machine
end

section
/-! PROOFS. Flag instructions, interrupts and reset (49_flags_misc.md R200 to R208, 60_exceptions.md R221 to R230,
70_reset_and_hazards.md R260). BRK, IRQ and NMI share the entry sequence, which is described once for all vectors. -/

namespace Sys2Proof.Machine

/-! ### One flag each (R200 to R207) -/

/-- Settles O45: each is the update of its flag, then `PC <- next`. -/
theorem flagInstructionsWriteOneFlag : Obligations.FlagInstructionsWriteOneFlag := by
  intro s
  refine ⟨⟨rfl, rfl, rfl, rfl, rfl, rfl, rfl, rfl⟩, ?_⟩
  exact ⟨rfl, rfl, rfl, rfl, rfl, rfl, rfl, rfl⟩

/-! ### The entry sequence (R228) -/

/-- An entry through a vector above the stack page: what it pushes does not change the vector that it then reads. -/
theorem interruptTaken_of_takeInterrupt {vec ret : Addr} {b : Bool} {s t : State} (hvec : 512 ≤ vec.toNat)
    (hnext : 512 ≤ (vec + 1).toNat) (h : takeInterrupt vec b ret s = .next t) : Claims.InterruptTaken s t vec b ret := by
  obtain ⟨-, -, -, -, -, rfl⟩ := takeInterrupt_eq_next.1 h
  refine ⟨?_, fun x => ?_⟩
  · rw [byteAt_entered_of_le b ret s hvec, byteAt_entered_of_le b ret s hnext, ← sub_one_sub_one_sub_one]
    ext1 <;> simp
  · rw [byteAt_setPoll, byteAt_setPC, byteAt_entered, sub_one_sub_one]

theorem takeInterrupt_of_entryPossible {vec : Addr} {s : State} (h : Claims.EntryPossible s vec) (b : Bool) (ret : Addr) :
    ∃ t, takeInterrupt vec b ret s = .next t := by
  obtain ⟨h0, h1, h2, hlo, hhi⟩ := h
  rw [← sub_one_sub_one] at h2
  exact ⟨_, takeInterrupt_eq_next.2 ⟨h0, h1, h2, hlo, hhi, rfl⟩⟩

/-- After an entry I is set and, where there are interrupts, the boundary knows: no IRQ is due, and the line is untouched. -/
theorem takeInterrupt_masks {vec ret : Addr} {b : Bool} {s t : State} (h : takeInterrupt vec b ret s = .next t) :
    t.irqLine = s.irqLine ∧ t.flagI = true ∧ irqDue t = false := by
  obtain ⟨-, -, -, -, -, rfl⟩ := takeInterrupt_eq_next.1 h
  refine ⟨by simp, by simp, ?_⟩
  simp only [irqDue, setPoll_iPoll, setPoll_params]
  cases (setPC _ (entered b ret s)).params.hwInterrupts <;> simp

/-- Settles O46: BRK is the entry through the vector at 0xFFFE with bit 4 set and `PC + 2` as the return address. -/
theorem brkTakesTheException : Obligations.BrkTakesTheException := by
  intro s hpossible
  obtain ⟨t, ht⟩ := takeInterrupt_of_entryPossible hpossible true (s.pc + 2)
  exact ⟨rfl, t, ht, interruptTaken_of_takeInterrupt (by decide) (by decide) ht⟩

/-- RTI after an entry: it pulls the three bytes that the entry pushed, and the status byte holds the six flags from before
the entry (R230). -/
theorem rti_after_entry {vec ret : Addr} {b : Bool} {s t : State} (hram0 : s.isRam (stackAddr s.regS) = true)
    (hram1 : s.isRam (stackAddr (s.regS - 1)) = true) (hram2 : s.isRam (stackAddr (s.regS - 2)) = true)
    (h : Claims.InterruptTaken s t vec b ret) :
    exec .rti t = .next { s with mem := t.mem, pc := ret, iPoll := t.iPoll } := by
  obtain ⟨ht, hbytes⟩ := h
  have hparams : t.params = s.params := by rw [ht]
  have hplain (a : Addr) (hram : s.isRam a = true) : t.isPlain a = true :=
    (isPlain_congr hparams a).trans (isPlain_of_isRam hram)
  have hS : t.regS = s.regS - 3 := congrArg State.regS ht
  have h1 : t.regS + 1 = s.regS - 2 := by bv_omega
  have h2 : t.regS + 2 = s.regS - 1 := by bv_omega
  have h3 : t.regS + 3 = s.regS := by bv_omega
  have hstatus : byteAt t (stackAddr (s.regS - 2)) = packP b s := by
    rw [hbytes, if_pos ⟨rfl, hram2⟩]
  have hlo : byteAt t (stackAddr (s.regS - 1)) = loByte ret := by
    rw [hbytes, if_neg fun h => stackAddr_ne_sub (k := 1) (by decide) (h.1.trans (by rw [sub_one_sub_one])),
      if_pos ⟨rfl, hram1⟩]
  have hhi : byteAt t (stackAddr s.regS) = hiByte ret := by
    rw [hbytes, if_neg fun h => stackAddr_ne_sub (by decide) h.1, if_neg fun h => stackAddr_ne_sub (by decide) h.1,
      if_pos ⟨rfl, hram0⟩]
  obtain ⟨hN, hV, -, -, hD, hI, hZ, hC⟩ := packP_bits b s
  rw [rti_plain (h1 ▸ hplain _ hram2) (h2 ▸ hplain _ hram1) (h3 ▸ hplain _ hram0) (h1 ▸ hstatus.symm), h2, h3, hlo,
    hhi, joinBytes_hi_lo, hN, hV, hD, hI, hZ, hC, ht]

/-- Settles O47: BRK is an entry with `PC + 2` as the return address, and `rti_after_entry` returns from it. -/
theorem rtiUndoesBrk : Obligations.RtiUndoesBrk := by
  intro s t hram0 hram1 hram2 h
  have hentry : Claims.InterruptTaken s t irqVector true (s.pc + 2) :=
    interruptTaken_of_takeInterrupt (by decide) (by decide) h
  exact ⟨_, rti_after_entry hram0 hram1 hram2 hentry, rfl⟩

/-! ### The boundary (R223 to R227) -/

theorem nmiDue_eq {s : State} (hhw : s.params.hwInterrupts = true) : nmiDue s = s.nmiPending := by
  rw [nmiDue, hhw, Bool.and_true]

theorem irqDue_eq_true {s : State} (hhw : s.params.hwInterrupts = true) (hline : s.irqLine = true)
    (hpoll : s.iPoll = false) : irqDue s = true := by
  simp [irqDue, hhw, hline, hpoll]

theorem step_of_reset {s : State} (hmark : s.faultMark = false) (hreset : s.resetLine = true) :
    step s = takeReset s := by
  simp [step, hmark, hreset]

theorem step_of_nmiDue {s : State} (hmark : s.faultMark = false) (hreset : s.resetLine = false)
    (hnmi : nmiDue s = true) : step s = takeNmi s := by
  simp [step, hmark, hreset, hnmi]

theorem step_of_irqDue {s : State} (hmark : s.faultMark = false) (hreset : s.resetLine = false)
    (hnmi : nmiDue s = false) (hirq : irqDue s = true) : step s = takeIrq s := by
  simp [step, hmark, hreset, hnmi, hirq]

/-- Settles O48: what is due decides the step, in the order of R226; an NMI entry masks IRQs and leaves the line up. -/
theorem boundaryPriority : Obligations.BoundaryPriority := by
  intro s hmark
  refine ⟨step_of_reset hmark, fun hreset hhw => ⟨fun hnmi => ?_, fun hnmi => ⟨?_, fun hirq => ?_⟩⟩,
    fun hreset hhw => ?_⟩
  · have hstep := step_of_nmiDue hmark hreset ((nmiDue_eq hhw).trans hnmi)
    exact ⟨hstep, fun t ht => takeInterrupt_masks (s := { s with nmiPending := false }) (hstep.symm.trans ht)⟩
  · rintro ⟨hline, hpoll⟩
    exact step_of_irqDue hmark hreset ((nmiDue_eq hhw).trans hnmi) (irqDue_eq_true hhw hline hpoll)
  · exact step_of_nothingDue hmark hreset (.inr ⟨hnmi, hirq⟩)
  · exact step_of_nothingDue hmark hreset (.inl hhw)

/-- An edge sets the latch (R224). -/
theorem platformMove_nmiEdge {s : State} (hhw : s.params.hwInterrupts = true) :
    platformMove s .nmiEdge = { s with nmiPending := true } := if_pos hhw

/-- Settles O49: with the latch set the step is the entry that `takeNmi` makes from the state with the latch cleared. -/
theorem nmiEntry : Obligations.NmiEntry := by
  intro s hmark hreset hhw hnmi
  have hset : { s with nmiPending := true } = s := by rw [← hnmi]
  refine ⟨(platformMove_nmiEdge hhw).trans hset,
    (platformMove_nmiEdge (s := { s with nmiPending := false }) hhw).trans hset, fun hpossible => ?_⟩
  obtain ⟨t, ht⟩ := takeInterrupt_of_entryPossible (s := { s with nmiPending := false }) hpossible false s.pc
  exact ⟨t, (step_of_nmiDue hmark hreset ((nmiDue_eq hhw).trans hnmi)).trans ht,
    interruptTaken_of_takeInterrupt (by decide) (by decide) ht⟩

/-- Settles O50: the entry leaves the line as it was, and I and `i_poll` mask it. -/
theorem irqEntry : Obligations.IrqEntry := by
  intro s hmark hreset hhw hnmi hline hpoll hpossible
  obtain ⟨t, ht⟩ := takeInterrupt_of_entryPossible hpossible false s.pc
  obtain ⟨hkept, -, hmasked⟩ := takeInterrupt_masks ht
  have hstep := step_of_irqDue hmark hreset ((nmiDue_eq hhw).trans hnmi) (irqDue_eq_true hhw hline hpoll)
  exact ⟨t, hstep.trans ht, interruptTaken_of_takeInterrupt (by decide) (by decide) ht, hkept.trans hline, hmasked⟩

/-! ### When `i_poll` follows I (R226, R266) -/

/-- CLI, SEI and PLP put the I from before in `i_poll` themselves. -/
theorem iPoll_of_delaysPoll {i : Instr} {s t : State} (hi : i ∈ [Instr.cli, .sei, .plp]) (h : exec i s = .next t) :
    t.iPoll = if s.params.hwInterrupts then s.flagI else s.iPoll := by
  fin_cases hi
  · cases h; rfl
  · cases h; rfl
  · obtain ⟨p, hp, ht⟩ := andThen_eq_next.1 h
    obtain ⟨-, rfl⟩ := pull_eq_next.1 hp
    cases ht; rfl

theorem writes_iPoll (p : Params) (i : Instr) : writes p i .iPoll = decide (i ∈ [Instr.cli, .sei, .plp, .brk]) := by
  cases i <;> rfl

/-- Without `HW_INTERRUPTS` no instruction changes `i_poll`: its four writers go through `setPoll`. -/
theorem iPoll_of_no_interrupts {i : Instr} {s t : State} (hhw : s.params.hwInterrupts = false) (h : exec i s = .next t) :
    t.iPoll = s.iPoll := by
  by_cases hi : i ∈ [Instr.cli, .sei, .plp, .brk]
  · obtain hdelays | rfl : i ∈ [Instr.cli, .sei, .plp] ∨ i = .brk := by simpa [or_assoc] using hi
    · simp [iPoll_of_delaysPoll hdelays h, hhw]
    · obtain ⟨-, -, -, -, -, rfl⟩ := takeInterrupt_eq_next.1 h
      simp [hhw]
  · exact exec_keeps h ((writes_iPoll _ i).trans (decide_eq_false hi))

theorem afterInstruction_iPoll (i : Instr) (t : State) :
    (afterInstruction i t).iPoll =
      if i ∈ [Instr.cli, .sei, .plp] then t.iPoll else if t.params.hwInterrupts then t.flagI else t.iPoll := by
  simp only [afterInstruction, ← delaysPoll_iff]
  split
  · rfl
  · rfl

/-- Settles O51: the boundary leaves the `i_poll` of the three that delay it alone, and copies I after all others. -/
theorem maskTakesEffectOneBoundaryLate : Obligations.MaskTakesEffectOneBoundaryLate := by
  intro i s t h
  have hparams : t.params = s.params := exec_keeps h (q := .params) rfl
  rw [afterInstruction_iPoll, hparams]
  refine ⟨fun hhw => ?_, fun hhw => ?_⟩
  · rw [hhw]
    split
    · rename_i hdelays
      rw [iPoll_of_delaysPoll hdelays h, hhw]
      rfl
    · rfl
  · rw [hhw, iPoll_of_no_interrupts hhw h]
    exact ite_self _

/-! ### Reset (R260) -/

/-- D is cleared under `INT_CLEARS_D`; else it is one of the flags that are drawn. -/
theorem drawUnspecified_flagD (s : State) :
    (drawUnspecified s).flagD = if s.params.intClearsD then false else (drawUnspecified s).flagD := by
  rw [drawUnspecified]
  split
  · rfl
  · rfl

/-- Settles O52: the reset sequence reads its vector, and then updates registers, flags and the latch alone. -/
theorem resetSequence : Obligations.ResetSequence := by
  intro s target hmark hreset hlo hhi htarget
  obtain rfl := eq_joinBytes_iff.2 htarget
  refine ⟨_, (step_of_reset hmark hreset).trans (takeReset_eq_next.2 ⟨hlo, hhi, rfl⟩), ?_⟩
  ext1
  case flagD => exact drawUnspecified_flagD _
  all_goals rfl

end Sys2Proof.Machine
end

section
/-! PROOFS. No instruction faults, and on plain memory every instruction goes on (60_exceptions.md R222). Each access of memory
has this property, and sequencing keeps it. -/

namespace Sys2Proof.Machine

/-- Every address is `ram` or `rom`. -/
def AllPlain (s : State) : Prop := ∀ a, s.isPlain a = true

/-- An operation on `s` that answers `r` never faults, and goes on if all of memory is plain. -/
structure FaultFree {α : Type} (s : State) (r : Result α) : Prop where
  ne_fault : ∀ f, r ≠ .fault f
  goesOn : AllPlain s → ∃ x, r = .next x

namespace FaultFree

variable {α β : Type} {s t : State}

theorem next (x : α) : FaultFree s (.next x : Result α) where
  ne_fault _ := nofun
  goesOn _ := ⟨x, rfl⟩

/-- Sequencing: what comes second has the property for each value with which the first goes on. -/
theorem andThen {r : Result α} {k : α → Result β} (hr : FaultFree s r) (hk : ∀ x, r = .next x → FaultFree s (k x)) :
    FaultFree s (andThen r k) := by
  obtain ⟨hfault, hgoes⟩ := hr
  cases r with
  | next x => exact hk x rfl
  | fault f => exact absurd rfl (hfault f)
  | refused f => exact ⟨fun _ => nofun, fun hplain => nomatch hgoes hplain⟩

/-- Which addresses are plain is a matter of the parameters alone. -/
theorem of_params_eq {r : Result α} (hparams : t.params = s.params) (hr : FaultFree t r) : FaultFree s r :=
  ⟨hr.ne_fault, fun hplain => hr.goesOn fun a => (isPlain_congr hparams a).trans (hplain a)⟩

end FaultFree

/-! ### The accesses of memory -/

section Operations

variable (s : State)

theorem memRead_faultFree (a : Addr) : FaultFree s (memRead a s) where
  ne_fault f := by
    rw [memRead]
    cases s.kind a <;> nofun
  goesOn hplain := ⟨_, memRead_plain (hplain a)⟩

theorem memWrite_faultFree (a : Addr) (v : Byte) : FaultFree s (memWrite a v s) where
  ne_fault f := by
    rw [memWrite]
    cases s.kind a <;> nofun
  goesOn hplain := ⟨_, memWrite_plain (hplain a)⟩

theorem readPair_faultFree (lo hi : Addr) : FaultFree s (readPair lo hi s) :=
  (memRead_faultFree s lo).andThen fun _ _ => (memRead_faultFree s hi).andThen fun _ _ => .next _

/-! ### Operands -/

theorem MemForm.ea_faultFree (f : MemForm) : FaultFree s (f.ea s) := by
  cases f with
  | zp | zpX | zpY | abs | absX | absY => exact .next _
  | indX b => exact readPair_faultFree s _ _
  | indY b => exact (readPair_faultFree s _ _).andThen fun _ _ => .next _

theorem ReadForm.read_faultFree (f : ReadForm) : FaultFree s (f.read s) := by
  cases f with
  | imm b => exact .next b
  | mem f => exact (f.ea_faultFree s).andThen fun a _ => memRead_faultFree s a

theorem withOperand_faultFree (f : ReadForm) (e : Byte → State → State) : FaultFree s (withOperand f e s) :=
  (f.read_faultFree s).andThen fun _ _ => .next _

theorem storeOperand_faultFree (f : MemForm) (v : Byte) : FaultFree s (storeOperand f v s) :=
  (f.ea_faultFree s).andThen fun a _ => (memWrite_faultFree s a v).andThen fun _ _ => .next _

theorem modifyMemory_faultFree (f : MemForm) (g : Byte → Byte) (e : Byte → State → State) :
    FaultFree s (modifyMemory f g e s) :=
  (f.ea_faultFree s).andThen fun a _ => (memRead_faultFree s a).andThen fun m _ =>
    (memWrite_faultFree s a (g m)).andThen fun _ _ => .next _

theorem modifyOperand_faultFree (f : ShiftForm) (g : Byte → Byte) (e : Byte → State → State) :
    FaultFree s (modifyOperand f g e s) := by
  cases f with
  | acc => exact .next _
  | mem f => exact modifyMemory_faultFree s f g e

/-! ### The stack -/

theorem push_faultFree (v : Byte) : FaultFree s (push v s) :=
  (memWrite_faultFree s _ v).andThen fun _ _ => .next _

theorem pull_faultFree : FaultFree s (pull s) :=
  .andThen (.of_params_eq (t := setS (s.regS + 1) s) rfl (memRead_faultFree _ _)) fun _ _ => .next _

theorem pushPair_faultFree (w : Addr) : FaultFree s (pushPair w s) :=
  (push_faultFree s (hiByte w)).andThen fun t ht => by
    obtain ⟨-, rfl⟩ := push_eq_pushed.1 ht
    exact .of_params_eq (t := pushed (hiByte w) s) rfl (push_faultFree _ _)

theorem pullPair_faultFree : FaultFree s (pullPair s) :=
  (pull_faultFree s).andThen fun p hp => by
    obtain ⟨-, rfl⟩ := pull_eq_next.1 hp
    exact .andThen (.of_params_eq (t := setS (s.regS + 1) s) rfl (pull_faultFree _)) fun _ _ => .next _

/-- An exception entry: three pushes, then the two reads of the vector (R228). -/
theorem takeInterrupt_faultFree (vec : Addr) (b : Bool) (ret : Addr) : FaultFree s (takeInterrupt vec b ret s) := by
  refine (pushPair_faultFree s ret).andThen fun t ht => ?_
  have hparams : t.params = s.params := by
    obtain ⟨-, -, rfl⟩ := pushPair_eq_next.1 ht
    rfl
  refine .andThen (.of_params_eq hparams (push_faultFree t _)) fun u hu => ?_
  have hparams' : u.params = s.params := by
    obtain ⟨-, rfl⟩ := push_eq_pushed.1 hu
    exact hparams
  exact .andThen (.of_params_eq (t := clearDOnEntry (setI true u)) hparams' (readPair_faultFree _ _ _)) fun _ _ => .next _

/-- A return from an exception: three pulls (R230). -/
theorem returnFromInterrupt_faultFree : FaultFree s (returnFromInterrupt s) := by
  refine (pull_faultFree s).andThen fun p hp => ?_
  obtain ⟨-, rfl⟩ := pull_eq_next.1 hp
  exact .andThen (.of_params_eq (t := unpackP _ (setS (s.regS + 1) s)) rfl (pullPair_faultFree _)) fun _ _ => .next _

/-! ### The operations that the forms of one mnemonic share -/

theorem loadA_faultFree (f : ReadForm) : FaultFree s (loadA f s) := withOperand_faultFree s f _

theorem loadX_faultFree (f : ReadForm) : FaultFree s (loadX f s) := withOperand_faultFree s f _

theorem loadY_faultFree (f : ReadForm) : FaultFree s (loadY f s) := withOperand_faultFree s f _

theorem addWithCarry_faultFree (f : ReadForm) : FaultFree s (addWithCarry f s) := withOperand_faultFree s f _

theorem subtractWithBorrow_faultFree (f : ReadForm) : FaultFree s (subtractWithBorrow f s) := withOperand_faultFree s f _

theorem andWithA_faultFree (f : ReadForm) : FaultFree s (andWithA f s) := withOperand_faultFree s f _

theorem orWithA_faultFree (f : ReadForm) : FaultFree s (orWithA f s) := withOperand_faultFree s f _

theorem eorWithA_faultFree (f : ReadForm) : FaultFree s (eorWithA f s) := withOperand_faultFree s f _

theorem compareA_faultFree (f : ReadForm) : FaultFree s (compareA f s) := withOperand_faultFree s f _

theorem compareX_faultFree (f : ReadForm) : FaultFree s (compareX f s) := withOperand_faultFree s f _

theorem compareY_faultFree (f : ReadForm) : FaultFree s (compareY f s) := withOperand_faultFree s f _

theorem storeA_faultFree (f : MemForm) : FaultFree s (storeA f s) := storeOperand_faultFree s f _

theorem storeX_faultFree (f : MemForm) : FaultFree s (storeX f s) := storeOperand_faultFree s f _

theorem storeY_faultFree (f : MemForm) : FaultFree s (storeY f s) := storeOperand_faultFree s f _

theorem incrementMemory_faultFree (f : MemForm) : FaultFree s (incrementMemory f s) := modifyMemory_faultFree s f _ _

theorem decrementMemory_faultFree (f : MemForm) : FaultFree s (decrementMemory f s) := modifyMemory_faultFree s f _ _

theorem shiftLeft_faultFree (f : ShiftForm) : FaultFree s (shiftLeft f s) := modifyOperand_faultFree s f _ _

theorem shiftRight_faultFree (f : ShiftForm) : FaultFree s (shiftRight f s) := modifyOperand_faultFree s f _ _

theorem rotateLeft_faultFree (f : ShiftForm) : FaultFree s (rotateLeft f s) := modifyOperand_faultFree s f _ _

theorem rotateRight_faultFree (f : ShiftForm) : FaultFree s (rotateRight f s) := modifyOperand_faultFree s f _ _

end Operations

/-! ### The instructions -/

theorem exec_faultFree (i : Instr) (s : State) : FaultFree s (exec i s) := by
  cases i <;> rw [exec]
  case ldaImm | ldaZp | ldaZpX | ldaAbs | ldaAbsX | ldaAbsY | ldaIndX | ldaIndY => exact loadA_faultFree s _
  case ldxImm | ldxZp | ldxZpY | ldxAbs | ldxAbsY => exact loadX_faultFree s _
  case ldyImm | ldyZp | ldyZpX | ldyAbs | ldyAbsX => exact loadY_faultFree s _
  case staZp | staZpX | staAbs | staAbsX | staAbsY | staIndX | staIndY => exact storeA_faultFree s _
  case stxZp | stxZpY | stxAbs => exact storeX_faultFree s _
  case styZp | styZpX | styAbs => exact storeY_faultFree s _
  case adcImm | adcZp | adcZpX | adcAbs | adcAbsX | adcAbsY | adcIndX | adcIndY => exact addWithCarry_faultFree s _
  case sbcImm | sbcZp | sbcZpX | sbcAbs | sbcAbsX | sbcAbsY | sbcIndX | sbcIndY =>
    exact subtractWithBorrow_faultFree s _
  case incZp | incZpX | incAbs | incAbsX => exact incrementMemory_faultFree s _
  case decZp | decZpX | decAbs | decAbsX => exact decrementMemory_faultFree s _
  case aslA | aslZp | aslZpX | aslAbs | aslAbsX => exact shiftLeft_faultFree s _
  case lsrA | lsrZp | lsrZpX | lsrAbs | lsrAbsX => exact shiftRight_faultFree s _
  case rolA | rolZp | rolZpX | rolAbs | rolAbsX => exact rotateLeft_faultFree s _
  case rorA | rorZp | rorZpX | rorAbs | rorAbsX => exact rotateRight_faultFree s _
  case andImm | andZp | andZpX | andAbs | andAbsX | andAbsY | andIndX | andIndY => exact andWithA_faultFree s _
  case oraImm | oraZp | oraZpX | oraAbs | oraAbsX | oraAbsY | oraIndX | oraIndY => exact orWithA_faultFree s _
  case eorImm | eorZp | eorZpX | eorAbs | eorAbsX | eorAbsY | eorIndX | eorIndY => exact eorWithA_faultFree s _
  case cmpImm | cmpZp | cmpZpX | cmpAbs | cmpAbsX | cmpAbsY | cmpIndX | cmpIndY => exact compareA_faultFree s _
  case cpxImm | cpxZp | cpxAbs => exact compareX_faultFree s _
  case cpyImm | cpyZp | cpyAbs => exact compareY_faultFree s _
  case bitImm | bitZp | bitAbs => exact withOperand_faultFree s _ _
  case inx | iny | dex | dey | bcc | bcs | beq | bmi | bne | bpl | bvc | bvs | tax | txa | tay | tya | tsx | txs |
      jmpAbs | sec | sed | sei | clc | cld | cli | clv | nop =>
    exact .next _
  case pha | php => exact (push_faultFree s _).andThen fun _ _ => .next _
  case pla | plp => exact (pull_faultFree s).andThen fun _ _ => .next _
  case jmpInd | jmpIndAbsX => exact (readPair_faultFree s _ _).andThen fun _ _ => .next _
  case jsr => exact (pushPair_faultFree s _).andThen fun _ _ => .next _
  case rts => exact (pullPair_faultFree s).andThen fun _ _ => .next _
  case rti => exact returnFromInterrupt_faultFree s
  case brk => exact takeInterrupt_faultFree s _ _ _

/-- Settles O60: the two halves of `exec_faultFree`. -/
theorem noInstructionFaults : Obligations.NoInstructionFaults := fun i s =>
  ⟨(exec_faultFree i s).ne_fault, (exec_faultFree i s).goesOn⟩

end Sys2Proof.Machine
end
